-- ==== Sys2Proof/Word.lean ====
section
/-! DEFINITION. The widths of CORE (00_scope.md rule R7, 20_memory.md rule R44) and nothing else. Bit 0 of every
value is its least significant bit (rule R9). -/

namespace Sys2Proof

/-- A state word, a seed word, an output word: 64 bits (R7). Arithmetic on it is modulo 2^64 (R10). -/
abbrev Word := BitVec 64

/-- A cached value, a 32-bit result: 32 bits (R7). -/
abbrev Half := BitVec 32

/-- A command byte (R60), or one byte of a serialized snapshot (R43). -/
abbrev Byte := BitVec 8

/-- `seed_in`, three 64-bit lanes (R44, R68). -/
abbrev SeedBus := BitVec 192

/-- `state_in` and `rsp_state`, five 64-bit lanes (R44, R69). -/
abbrev SnapshotBus := BitVec 320

end Sys2Proof
end

