-- ==== Sys2Proof/Syntax.lean ====
section
/-! DEFINITION. The commands of CORE as data: the six instructions of spec/opcode_table.json (30_encoding.md rule
R63), what the host puts on the command port (R60, R68, R69), and the lines of the command language of R72 and R73. -/

namespace Sys2Proof

/-- The four state words `S[0]` to `S[3]` (10_state.md R21). -/
structure Words where
  s0 : Word
  s1 : Word
  s2 : Word
  s3 : Word
deriving DecidableEq, Repr

/-- The persisted state, exactly `(words, has_cached, cached_value)` (10_state.md R32, 30_encoding.md R69). -/
structure Snapshot where
  words       : Words
  hasCached   : Bool
  cachedValue : Half
deriving DecidableEq, Repr

/-- The six opcodes of the opcode map (30_encoding.md R63). -/
inductive Opcode where
  | seed | next64 | next32 | nextraw | getstate | setstate
deriving DecidableEq, Repr

/-- One constructor per row of spec/opcode_table.json. The operands are the values a command samples from its bus
at acceptance (30_encoding.md R70): the three seed lanes for SEED (R68), the snapshot fields for SETSTATE (R69). The
other four commands take none. -/
inductive Instr where
  | seed (w0 w1 w2 : Word)
  | next64
  | next32
  | nextraw
  | getstate
  | setstate (x : Snapshot)
deriving DecidableEq, Repr

/-- The opcode of an instruction. -/
def Instr.opcode : Instr → Opcode
  | .seed _ _ _ => .seed
  | .next64     => .next64
  | .next32     => .next32
  | .nextraw    => .nextraw
  | .getstate   => .getstate
  | .setstate _ => .setstate

/-- What the block samples at the acceptance edge (20_memory.md R47): the command byte and both operand buses. -/
structure Command where
  cmd     : Byte
  seedIn  : SeedBus
  stateIn : SnapshotBus
deriving DecidableEq, Repr

/-- One line of the command language (30_encoding.md R72), with the two pseudo-instructions of R73 (`seed2`,
`setstate4`) and the raw form `.cmd 0xNN` (`raw`). Operands are C literals, so they are numbers here; WellFormed.lean
checks their ranges. -/
inductive AsmLine where
  | seed (w0 w1 w2 : Nat)
  | seed2 (w0 w1 : Nat)
  | next64
  | next32
  | nextraw
  | getstate
  | setstate (s0 s1 s2 s3 h c : Nat)
  | setstate4 (s0 s1 s2 s3 : Nat)
  | raw (byte : Nat)
deriving DecidableEq, Repr

end Sys2Proof
end

