-- ==== Sys2Proof/Config.lean ====
section
/-! DEFINITION. What is fixed when a CORE instance is built or integrated (00_scope.md R8). The spec leaves all three
parameters open ("A model takes the first three as arguments"): VARIANT reaches the machine through State.variant,
whose value at reset is a constant without a body; LAT and SNAPSHOT_BYTE_ORDER are arguments of the definitions that
use them (Machine/Ports.lean, Machine/Operands.lean). -/

namespace Sys2Proof

/-- The instance parameter `VARIANT` (00_scope.md R3): one of two transition functions, chosen at build time. -/
inductive Variant where
  | gjrand | jsf64
deriving DecidableEq, Repr, Inhabited

/-- The variant the block was built as. No body: nothing can be proved about which of the two it is (log entry 1). -/
opaque Config.variant : Variant

/-- `LAT(op)` for a command that is performed, and `LAT(ERR)` for one that ends in an error, in clock cycles
(70_reset_and_hazards.md R170). An argument wherever it is used. -/
structure Latency where
  op  : Opcode → Nat
  err : Nat

/-- Every latency is an integer ≥ 1 (R170). -/
def Latency.wf (lat : Latency) : Prop :=
  (∀ op, 1 ≤ lat.op op) ∧ 1 ≤ lat.err

/-- `SNAPSHOT_BYTE_ORDER` (20_memory.md R43): which of the bus's 40 bytes the integrator writes at each of the 40
places of the serialized snapshot. Any order, so any permutation (log entry 4). -/
abbrev ByteOrder := Equiv.Perm (Fin 40)

end Sys2Proof
end

