-- ==== Sys2Proof/WellFormed.lean ====
section
/-! DEFINITION. Which terms of the syntax stand for something a host can send. An instruction's operands carry their
widths in their types (30_encoding.md R68, R69: every lane value is legal, no validation), so every instruction is
well formed. A line of the command language (R72, R73) writes its operands as numbers, and their ranges are checked. -/

namespace Sys2Proof

/-- Every operand value is legal: "no seed value is illegal" (42_seed_state.md R120), and SETSTATE has "no validation
beyond type range" (R131), which the types give. -/
def Instr.wf : Instr → Bool
  | .seed _ _ _ => true
  | .next64     => true
  | .next32     => true
  | .nextraw    => true
  | .getstate   => true
  | .setstate _ => true

/-- A literal that fits a 64-bit lane. -/
def isWord (n : Nat) : Bool := n < 2 ^ 64

/-- A byte that has no mnemonic, so that `.cmd` writes it (30_encoding.md R72): a reserved byte of R65 to R67. -/
def isReservedByte (n : Nat) : Bool := n < 256 && !(1 ≤ n && n ≤ 6)

/-- The operand ranges of R72: `h in (0,1)`, `c < 2^32`, seed and state words 64 bits, `.cmd` a reserved byte. -/
def AsmLine.wf : AsmLine → Bool
  | .seed w0 w1 w2 => isWord w0 && isWord w1 && isWord w2
  | .seed2 w0 w1 => isWord w0 && isWord w1
  | .next64 => true
  | .next32 => true
  | .nextraw => true
  | .getstate => true
  | .setstate s0 s1 s2 s3 h c =>
      isWord s0 && isWord s1 && isWord s2 && isWord s3 && h < 2 && c < 2 ^ 32
  | .setstate4 s0 s1 s2 s3 => isWord s0 && isWord s1 && isWord s2 && isWord s3
  | .raw byte => isReservedByte byte

end Sys2Proof
end

