-- ==== Sys2Proof/Decode.lean ====
section
/-! DEFINITION. From the command port to an instruction (30_encoding.md R60 to R70), total on every byte and every bus
value, refusing reserved bytes by name; and back. -/

namespace Sys2Proof

/-- Why a byte is no command. Each one ends in the status ERR_RESERVED (30_encoding.md R64). -/
inductive DecodeError where
  /-- Some bit of `cmd[7:3]` is set (R65). -/
  | reservedBits
  /-- OP = `000` (R67). -/
  | reservedZero
  /-- OP = `111`, the slot of `next_double` (R66). -/
  | reservedDouble
deriving DecidableEq, Repr

/-- `cmd[2:0]`, the field OP (R60). -/
def opField (b : Byte) : BitVec 3 := b.extractLsb' 0 3

/-- `cmd[7:3]`, the field RSV (R60). -/
def rsvField (b : Byte) : BitVec 5 := b.extractLsb' 3 5

/-- The decoder of R64. The RSV check comes first, whatever OP holds (R65). -/
def decodeByte (b : Byte) : Except DecodeError Opcode :=
  if rsvField b = 0 then
    match (opField b).toNat with
    | 0 => .error .reservedZero
    | 1 => .ok .seed
    | 2 => .ok .next64
    | 3 => .ok .next32
    | 4 => .ok .nextraw
    | 5 => .ok .getstate
    | 6 => .ok .setstate
    | _ => .error .reservedDouble
  else .error .reservedBits

/-- Lane `i` of a bus: its bits `[64·i+63 : 64·i]` (20_memory.md R43). -/
def lane {w : Nat} (bus : BitVec w) (i : Nat) : Word := bus.extractLsb' (64 * i) 64

/-- The snapshot on a bus (R69). Lane 4 bits 63:33 are not looked at. -/
def Snapshot.unpack (bus : SnapshotBus) : Snapshot where
  words       := ⟨lane bus 0, lane bus 1, lane bus 2, lane bus 3⟩
  hasCached   := (lane bus 4).getLsbD 32
  cachedValue := (lane bus 4).extractLsb' 0 32

/-- `snapshot()` of R69: zext_31(0) ++ HAS_CACHED ++ CACHED_VALUE ++ S[3] ++ S[2] ++ S[1] ++ S[0]. -/
def Snapshot.pack (x : Snapshot) : SnapshotBus :=
  0#31 ++ BitVec.ofBool x.hasCached ++ x.cachedValue ++ x.words.s3 ++ x.words.s2 ++ x.words.s1 ++ x.words.s0

/-- The operands an opcode samples (R70): SEED `seed_in` (R68), SETSTATE `state_in` (R69), the others nothing. -/
def operandsOf (op : Opcode) (c : Command) : Instr :=
  match op with
  | .seed     => .seed (lane c.seedIn 0) (lane c.seedIn 1) (lane c.seedIn 2)
  | .next64   => .next64
  | .next32   => .next32
  | .nextraw  => .nextraw
  | .getstate => .getstate
  | .setstate => .setstate (Snapshot.unpack c.stateIn)

/-- The decoder: the byte names the operation (R61, R64), the buses its operands (R70). -/
def decode (c : Command) : Except DecodeError Instr :=
  match decodeByte c.cmd with
  | .ok op   => .ok (operandsOf op c)
  | .error e => .error e

/-- The command byte of an opcode: `00000` ++ OP (R63). -/
def opcodeByte : Opcode → Byte
  | .seed     => 0x01
  | .next64   => 0x02
  | .next32   => 0x03
  | .nextraw  => 0x04
  | .getstate => 0x05
  | .setstate => 0x06

/-- Three seed words on `seed_in`, word `i` in lane `i` (R68). -/
def packSeed (w0 w1 w2 : Word) : SeedBus := w2 ++ w1 ++ w0

/-- The port values of an instruction: its byte (R63), its operands on their bus (R72), an unused bus zero. -/
def encode (i : Instr) : Command :=
  match i with
  | .seed w0 w1 w2 => ⟨opcodeByte .seed, packSeed w0 w1 w2, 0⟩
  | .next64        => ⟨opcodeByte .next64, 0, 0⟩
  | .next32        => ⟨opcodeByte .next32, 0, 0⟩
  | .nextraw       => ⟨opcodeByte .nextraw, 0, 0⟩
  | .getstate      => ⟨opcodeByte .getstate, 0, 0⟩
  | .setstate x    => ⟨opcodeByte .setstate, 0, x.pack⟩

/-- A command byte with all operand buses zero: what `.cmd 0xNN` puts on the port (R72). -/
def rawCommand (b : Byte) : Command := ⟨b, 0, 0⟩

/-- The instruction the decoder reads from a word of spec/opcode_table.json. Every command is one 8-bit byte (R61),
so any other length is no command; the operand buses are zero. -/
def decodeTableWord (nbits w : Nat) : Option Instr :=
  if nbits = 8 ∧ w < 256 then (decode (rawCommand (BitVec.ofNat 8 w))).toOption else none

end Sys2Proof
end

