-- ==== Sys2Proof/Machine/State.lean ====
section
/-! DEFINITION. The state of one CORE instance (10_state.md R20), what its host does next, its response port, the
reasons a step can stop, and reset (R31). -/

namespace Sys2Proof.Machine

/-- The status of a response (60_exceptions.md R140). Code `11` is never produced, so it has no constructor. -/
inductive Status where
  | ok | errReserved | errUnseeded
deriving DecidableEq, Repr

/-- One response on `rsp_status`, `rsp_data` and `rsp_state` (20_memory.md R46). -/
structure Response where
  status : Status
  data   : Word
  state  : SnapshotBus
deriving DecidableEq, Repr

/-- Operations of the source that 00_scope.md puts outside CORE (R5): none is a command. -/
inductive OutsideOp where
  | nextDouble | arrayFill | seedDerivation
deriving DecidableEq, Repr

/-- What the outside world does to the block, in the order in which it happens (20_memory.md R51). -/
inductive HostEvent where
  /-- A command accepted at the command port (R47), with the operands sampled then. -/
  | command (c : Command)
  /-- `rst` = 1 at a rising edge of `clk` (70_reset_and_hazards.md R160). -/
  | reset
  /-- Power is lost and applied again: register contents are not retained (60_exceptions.md R153). -/
  | powerCycle
  /-- Two hosts drive the instance with no arbitration between them (20_memory.md R56). -/
  | unarbitrated (a b : Command)
  /-- The host asks for an operation that is outside CORE (00_scope.md R5). -/
  | outsideCore (op : OutsideOp)
deriving DecidableEq, Repr

/-- Why the machine stops. -/
inductive Fault where
  /-- A command is presented after power-up and before the first reset, when no register holds a value
  (70_reset_and_hazards.md R163; 93_implementation_defined.md U5 asks for a fault). Raised by the handling of a host
  event (Machine/Command.lean) and by a clock edge (Machine/Ports.lean), never by an instruction. Safe: the model
  stops where the block goes on with unspecified values. -/
  | beforeReset
deriving DecidableEq, Repr

/-- What the model gives no meaning. -/
inductive Refusal where
  /-- An instruction of the opcode table whose meaning is not written yet, by its mnemonic. Raised by exec's arms
  only. Safe. -/
  | notModelled (mnemonic : String)
  /-- Two unarbitrated hosts on one instance: "it refuses such a launch" (20_memory.md R56, U1). Raised by the
  handling of a host event. Safe. -/
  | unarbitratedHosts
  /-- An operation that is not a CORE command, by name: "A model refuses any such operation by name" (00_scope.md
  R5). Raised by the handling of a host event. Safe. -/
  | outsideCore (op : OutsideOp)
deriving DecidableEq, Repr

/-- One CORE instance between two commands. -/
structure State where
  /-- `VARIANT`, the build parameter (00_scope.md R3). No instruction writes it (log entry 1). -/
  variant     : Variant
  /-- `S[0]` to `S[3]` (R21). -/
  words       : Words
  /-- `HAS_CACHED` (R23). -/
  hasCached   : Bool
  /-- `CACHED_VALUE`, which always holds a value (R24). -/
  cachedValue : Half
  /-- `OUT`, the output register (R26). -/
  out         : Word
  /-- `VALID`, the seeded flag (R25). -/
  valid       : Bool
  /-- Whether the block has been reset since power was applied; while it has not, no register holds a value
  (R163, log entry 2). -/
  wasReset    : Bool
  /-- The response port in the current response cycle; `none` is `rsp_valid` = 0 (20_memory.md R46). -/
  response    : Option Response
  /-- What the host does next, first event first (R27: the host's sequence of commands is the program; log entry 3). -/
  host        : List HostEvent
deriving DecidableEq, Repr

/-- The four state words after reset (R31). -/
def zeroWords : Words := ⟨0, 0, 0, 0⟩

/-- An instance of variant `v` right after reset (R31, R160): every register zero, idle, no response. -/
def State.resetOf (v : Variant) : State where
  variant     := v
  words       := zeroWords
  hasCached   := false
  cachedValue := 0
  out         := 0
  valid       := false
  wasReset    := true
  response    := none
  host        := []

/-- The machine right after reset, of whichever variant it was built as. -/
def State.reset : State := State.resetOf Config.variant

end Sys2Proof.Machine
end

