-- ==== Sys2Proof/Machine/Ops.lean ====
section
/-! DEFINITION. The named operations over the registers and the response port. CORE has no memory (20_memory.md R40),
takes no trap (60_exceptions.md R143) and has no return from one (R144): the one way a command ends other than by being
performed is `raise`, which is written here once. -/

namespace Sys2Proof.Machine

/-- The 2-bit code of a status on `rsp_status` (60_exceptions.md R140). -/
def Status.code : Status → BitVec 2
  | .ok          => 0b00
  | .errReserved => 0b01
  | .errUnseeded => 0b10

/-- `respond(status, data64, state320)` (20_memory.md R46): `rsp_data` is OUT after the command, so `s` is the state
with the command's register writes done. -/
def respond (status : Status) (snapshot : SnapshotBus) (s : State) : State :=
  { s with response := some ⟨status, s.out, snapshot⟩ }

/-- `raise ERR_x` (60_exceptions.md R142): respond with the error, OUT and a zero snapshot, and write no register. -/
def raise (status : Status) (s : State) : State := respond status 0 s

/-- `require_seeded()` (R141): while VALID = 0 the command ends in ERR_UNSEEDED, otherwise it is performed. -/
def requireSeeded (s : State) (perform : State → State) : Host.Outcome State Fault Refusal :=
  .next (if s.valid then perform s else raise .errUnseeded s)

/-- `S <- w`, all four state words at once (20_memory.md R49). -/
def setWords (w : Words) (s : State) : State := { s with words := w }

/-- `OUT <- v` (10_state.md R26). -/
def setOut (v : Word) (s : State) : State := { s with out := v }

/-- Reset (70_reset_and_hazards.md R160): every register of R20 takes its reset value, no response is shown. -/
def resetRegisters (s : State) : State :=
  { s with
    words := zeroWords, hasCached := false, cachedValue := 0, out := 0, valid := false
    wasReset := true, response := none }

/-- Loss of power (60_exceptions.md R153): from here until the next reset no register holds a value (R163). The
register fields keep their bits, but nothing reads them until reset overwrites them (log entry 2). -/
def losePower (s : State) : State := { s with wasReset := false, response := none }

/-- No command: the block holds its registers (R153) and shows no response. -/
def holdIdle (s : State) : State := { s with response := none }

/-- The host's remaining events. -/
def withHost (h : List HostEvent) (s : State) : State := { s with host := h }

/-- The pin `seeded`: VALID at every cycle (20_memory.md R45); unspecified before the first reset (R163). -/
def seededPin (s : State) : Option Bool := if s.wasReset then some s.valid else none

end Sys2Proof.Machine
end

