-- ==== Sys2Proof/Machine/Flags.lean ====
section
/-! DEFINITION. Every flag computation of CORE. HAS_CACHED and VALID are its only flags (10_state.md R29): there is no
carry, overflow, zero or sign flag. CACHED_VALUE is written together with HAS_CACHED, so both stand here. -/

namespace Sys2Proof.Machine

/-- NEXT32 on a miss: HAS_CACHED <- 1, CACHED_VALUE <- the high half (41_output.md R106). -/
def fillBuffer (high : Half) (s : State) : State := { s with hasCached := true, cachedValue := high }

/-- NEXT32 on a hit: HAS_CACHED <- 0, and CACHED_VALUE keeps its value (R105). -/
def drainBuffer (s : State) : State := { s with hasCached := false }

/-- After the warm-up of SEED: HAS_CACHED <- 0, CACHED_VALUE <- 0 (42_seed_state.md R124). -/
def clearBuffer (s : State) : State := { s with hasCached := false, cachedValue := 0 }

/-- VALID <- 1, by SEED and SETSTATE alone (10_state.md R25). -/
def markSeeded (s : State) : State := { s with valid := true }

end Sys2Proof.Machine
end

