-- ==== Sys2Proof/Machine/Transition.lean ====
section
/-! DEFINITION. The two transition functions and their inverses (40_transition.md R80 to R89). All arithmetic is
unsigned modulo 2^64 (00_scope.md R10). -/

namespace Sys2Proof.Machine

/-- `rotl64(v, r)`, the shift form of 00_scope.md R11, for 1 ≤ r ≤ 63. -/
def rotl64 (v : Word) (r : Nat) : Word := (v <<< r) ||| (v >>> (64 - r))

/-- gjrand's counter increment, `0x55AA96A5` (40_transition.md R82). -/
def gjrandIncrement : Word := 0x55AA96A5

/-- `step_GJRAND` (R82): eleven assignments in order, each on the values the previous one left; the output is the
final s0. -/
def stepGjrand (w : Words) : Words × Word :=
  let s0 := w.s0
  let s1 := w.s1
  let s2 := w.s2
  let s3 := w.s3
  let s1 := s1 + s2
  let s0 := rotl64 s0 32
  let s2 := s2 ^^^ s1
  let s3 := s3 + gjrandIncrement
  let s0 := s0 + s1
  let s2 := rotl64 s2 23
  let s1 := s1 ^^^ s0
  let s0 := s0 + s2
  let s1 := rotl64 s1 19
  let s2 := s2 + s0
  let s1 := s1 + s3
  (⟨s0, s1, s2, s3⟩, s0)

/-- `step_JSF64` (R85): every term reads the old words, but for the last word, which uses the new s0 (R86). -/
def stepJsf64 (w : Words) : Words × Word :=
  let e   := w.s0 - rotl64 w.s1 7
  let s0' := w.s1 ^^^ rotl64 w.s2 13
  let s1' := w.s2 + rotl64 w.s3 37
  let s2' := w.s3 + e
  let s3' := e + s0'
  (⟨s0', s1', s2', s3'⟩, s3')

/-- `inv_step_GJRAND` (R84): the assignments of R82 undone, last first. -/
def invGjrand (w : Words) : Words :=
  let s0 := w.s0
  let s1 := w.s1
  let s2 := w.s2
  let s3 := w.s3
  let s1 := s1 - s3
  let s2 := s2 - s0
  let s1 := rotl64 s1 (64 - 19)
  let s0 := s0 - s2
  let s1 := s1 ^^^ s0
  let s2 := rotl64 s2 (64 - 23)
  let s0 := s0 - s1
  let s3 := s3 - gjrandIncrement
  let s2 := s2 ^^^ s1
  let s0 := rotl64 s0 32
  let s1 := s1 - s2
  ⟨s0, s1, s2, s3⟩

/-- `inv_step_JSF64` (R87). -/
def invJsf64 (w : Words) : Words :=
  let e  := w.s3 - w.s0
  let s3 := w.s2 - e
  let s2 := w.s1 - rotl64 s3 37
  let s1 := w.s0 ^^^ rotl64 s2 13
  let s0 := e + rotl64 s1 7
  ⟨s0, s1, s2, s3⟩

/-- `step_V(s) -> (s', out)` (R80). -/
def transition (v : Variant) (w : Words) : Words × Word :=
  match v with
  | .gjrand => stepGjrand w
  | .jsf64  => stepJsf64 w

/-- The inverse of `transition v` on the words (R84, R87). -/
def invTransition (v : Variant) (w : Words) : Words :=
  match v with
  | .gjrand => invGjrand w
  | .jsf64  => invJsf64 w

/-- `n` transitions that keep only the state: `step_V^n` of 42_seed_state.md R126. -/
def advance (v : Variant) : Nat → Words → Words
  | 0, w     => w
  | n + 1, w => advance v n (transition v w).1

end Sys2Proof.Machine
end

