-- ==== Sys2Proof/Machine/Operands.lean ====
section
/-! DEFINITION. Every operand form of CORE: the seed words and where they go (42_seed_state.md R121), the snapshot in
and out of the registers (R128, R131), the two halves of a draw (41_output.md R106), and the snapshot as bytes
(20_memory.md R43). CORE has no immediate, register or memory operand (30_encoding.md R70). -/

namespace Sys2Proof.Machine

/-- Seed placement (42_seed_state.md R121). gjrand does not read the third word (30_encoding.md R68). -/
def placeSeed (v : Variant) (w0 w1 w2 : Word) : Words :=
  match v with
  | .gjrand => ⟨w0, w1, 2000001, 0⟩
  | .jsf64  => ⟨0xF1EA5EED, w0, w1, w2⟩

/-- The number of discarded warm-up transitions, fixed per variant (R123). -/
def warmUpCount : Variant → Nat
  | .gjrand => 14
  | .jsf64  => 20

/-- The state words SEED leaves: placement, then the warm-up (R122). -/
def seededWords (v : Variant) (w0 w1 w2 : Word) : Words :=
  advance v (warmUpCount v) (placeSeed v w0 w1 w2)

/-- `out[31:0]` (41_output.md R106). -/
def lowHalf (out : Word) : Half := out.extractLsb' 0 32

/-- `out[63:32]` (R106). -/
def highHalf (out : Word) : Half := out.extractLsb' 32 32

/-- `zext_64(r)` (R104). -/
def zext64 (r : Half) : Word := r.setWidth 64

/-- The five snapshot fields of a state (10_state.md R32, 30_encoding.md R69). -/
def snapshotOf (s : State) : Snapshot := ⟨s.words, s.hasCached, s.cachedValue⟩

/-- All five snapshot fields at once, verbatim (42_seed_state.md R131, 20_memory.md R49). -/
def install (x : Snapshot) (s : State) : State :=
  { s with words := x.words, hasCached := x.hasCached, cachedValue := x.cachedValue }

/-- The `n` lowest bytes of a number, lowest first. -/
def bytesOf : Nat → Nat → List Byte
  | 0, _     => []
  | n + 1, x => BitVec.ofNat 8 x :: bytesOf n (x / 256)

/-- The number whose bytes these are, lowest first. -/
def numberOf : List Byte → Nat
  | []      => 0
  | b :: bs => b.toNat + 256 * numberOf bs

/-- 40 bytes put in another order: place `k` gets byte `order k`. -/
def reorder (order : ByteOrder) (bs : List Byte) : List Byte :=
  (List.finRange 40).map fun k => bs.getD (order k).val 0

/-- A snapshot as 40 bytes, in the byte order the integrator chose (20_memory.md R43). -/
def serialize (order : ByteOrder) (bus : SnapshotBus) : List Byte :=
  reorder order (bytesOf 40 bus.toNat)

/-- The snapshot that 40 bytes in that order hold; another number of bytes is no snapshot. -/
def deserialize (order : ByteOrder) (bs : List Byte) : Option SnapshotBus :=
  if bs.length = 40 then some (BitVec.ofNat 320 (numberOf (reorder order.symm bs))) else none

end Sys2Proof.Machine
end

