-- ==== Sys2Proof/Machine/Checkpoint.lean ====
section
/-! DEFINITION. GETSTATE and SETSTATE (42_seed_state.md R128, R131). -/

namespace Sys2Proof.Machine

/-- GETSTATE (42_seed_state.md R128): the snapshot on `rsp_state`; no register is written. -/
def execGetstate (s : State) : Host.Outcome State Fault Refusal :=
  requireSeeded s fun s => respond .ok (snapshotOf s).pack s

/-- SETSTATE (42_seed_state.md R131): the snapshot installed verbatim, with no validation (R132), and VALID set; OUT is
not written. Allowed whatever VALID holds. -/
def execSetstate (x : Snapshot) (s : State) : Host.Outcome State Fault Refusal :=
  .next (respond .ok 0 (markSeeded (install x s)))

end Sys2Proof.Machine
end

