-- ==== Sys2Proof/Machine/Draw.lean ====
section
/-! DEFINITION. The output commands NEXT64, NEXTRAW and NEXT32 (41_output.md R100 to R106). -/

namespace Sys2Proof.Machine

/-- One transition whose whole output is returned (R100, R102): S and OUT are written, the 32-bit buffer is neither
read nor written (R101). -/
def draw64 (s : State) : State :=
  let r := transition s.variant s.words
  respond .ok 0 (setOut r.2 (setWords r.1 s))

/-- NEXT32 with HAS_CACHED = 1 (R105): no transition. -/
def draw32Hit (s : State) : State :=
  respond .ok 0 (setOut (zext64 s.cachedValue) (drainBuffer s))

/-- NEXT32 with HAS_CACHED = 0 (R106): one transition, the low half returned, the high half kept. -/
def draw32Miss (s : State) : State :=
  let r := transition s.variant s.words
  respond .ok 0 (setOut (zext64 (lowHalf r.2)) (fillBuffer (highHalf r.2) (setWords r.1 s)))

/-- NEXT64 (41_output.md R100). -/
def execNext64 (s : State) : Host.Outcome State Fault Refusal := requireSeeded s draw64

/-- NEXTRAW (41_output.md R102). -/
def execNextraw (s : State) : Host.Outcome State Fault Refusal := requireSeeded s draw64

/-- NEXT32 (41_output.md R104). -/
def execNext32 (s : State) : Host.Outcome State Fault Refusal :=
  requireSeeded s fun s => if s.hasCached then draw32Hit s else draw32Miss s

end Sys2Proof.Machine
end

