-- ==== Sys2Proof/Machine/Seed.lean ====
section
/-! DEFINITION. The seed load unit (42_seed_state.md R120 to R124). -/

namespace Sys2Proof.Machine

/-- SEED (42_seed_state.md R120): placement and warm-up, the buffer cleared, VALID set; OUT is not written. Allowed
whatever VALID holds, and no seed value is illegal. -/
def execSeed (w0 w1 w2 : Word) (s : State) : Host.Outcome State Fault Refusal :=
  .next (respond .ok 0 (markSeeded (clearBuffer (setWords (seededWords s.variant w0 w1 w2) s))))

end Sys2Proof.Machine
end

