-- ==== Sys2Proof/Machine/Dispatch.lean ====
section
/-! DEFINITION. One arm per instruction, each one direct call of its meaning. -/

namespace Sys2Proof.Machine

def exec (i : Instr) (s : State) : Host.Outcome State Fault Refusal :=
  match i with
  | .seed w0 w1 w2 => Sys2Proof.Machine.execSeed w0 w1 w2 s
  | .next64 => Sys2Proof.Machine.execNext64 s
  | .next32 => Sys2Proof.Machine.execNext32 s
  | .nextraw => Sys2Proof.Machine.execNextraw s
  | .getstate => Sys2Proof.Machine.execGetstate s
  | .setstate x => Sys2Proof.Machine.execSetstate x s

end Sys2Proof.Machine
end

