-- ==== Sys2Proof/Machine/Command.lean ====
section
/-! DEFINITION. What the block does with one accepted command (60_exceptions.md R141), and with each thing the outside
world can do to it. Machine/Step.lean only calls these. -/

namespace Sys2Proof.Machine

/-- The commands that require VALID = 1 (60_exceptions.md R141). -/
def needsSeeded : Opcode → Bool
  | .seed     => false
  | .next64   => true
  | .next32   => true
  | .nextraw  => true
  | .getstate => true
  | .setstate => false

/-- The status that `check(cmd)` of R141 leads to: the byte is checked first, then VALID. The meanings do not use it;
the clock-edge layer takes the command's latency from it (70_reset_and_hazards.md R170). -/
def checkStatus (c : Command) (valid : Bool) : Status :=
  match decodeByte c.cmd with
  | .error _ => .errReserved
  | .ok op   => if needsSeeded op && !valid then .errUnseeded else .ok

/-- One accepted command (R141): a reserved byte ends in ERR_RESERVED, checked first; any other is performed. -/
def performCommand (c : Command) (s : State) : Host.Outcome State Fault Refusal :=
  match decode c with
  | .ok i    => exec i s
  | .error _ => .next (raise .errReserved s)

/-- One event of the outside world, `s` being the state with that event taken off the host's list. -/
def performEvent (e : HostEvent) (s : State) : Host.Outcome State Fault Refusal :=
  match e with
  | .command c        => if s.wasReset then performCommand c s else .fault .beforeReset
  | .reset            => .next (resetRegisters s)
  | .powerCycle       => .next (losePower s)
  | .unarbitrated _ _ => .refused .unarbitratedHosts
  | .outsideCore op   => .refused (.outsideCore op)

/-- The next event of the host's list, in order (20_memory.md R51); with none left the block is idle and holds its
registers (60_exceptions.md R153). -/
def performNext (s : State) : Host.Outcome State Fault Refusal :=
  match s.host with
  | []        => .next (holdIdle s)
  | e :: rest => performEvent e (withHost rest s)

end Sys2Proof.Machine
end

