-- ==== Sys2Proof/Machine/Step.lean ====
section
/-! DEFINITION. One step of the machine: one command, as a single indivisible step from the state before it to the
state after it (00_scope.md R6, 20_memory.md R49), or one other event of the outside world. -/

namespace Sys2Proof.Machine

/-- One step. CORE fetches nothing (20_memory.md R54): the command is the first event of the host's list. -/
def step (s : State) : Host.Outcome State Fault Refusal := performNext s

/-- `s` with the command byte `w` (operand buses zero) as the next thing the host does, on a block that has been
reset, so that the next step performs exactly it (log entry 3). -/
def State.withFetchWord (s : State) (nbits w : Nat) : State :=
  { s with
    wasReset := true
    host := .command (rawCommand (BitVec.ofNat 8 (w % 2 ^ nbits))) :: s.host }

end Sys2Proof.Machine
end

