-- ==== Sys2Proof/Machine/Assembler.lean ====
section
/-! DEFINITION. The command language of 30_encoding.md R72 and R73: from a line of text to a syntax term, and from there
to the values on the command port. Nothing here affects what a command does (92_eei_decisions.md D27). -/

namespace Sys2Proof.Machine

/-- The instruction a line stands for; `.cmd` has none. Pseudo-instructions are expanded as R73 says. -/
def asmInstr : AsmLine → Option Instr
  | .seed w0 w1 w2 => some (.seed (BitVec.ofNat 64 w0) (BitVec.ofNat 64 w1) (BitVec.ofNat 64 w2))
  | .seed2 w0 w1 => some (.seed (BitVec.ofNat 64 w0) (BitVec.ofNat 64 w1) 0)
  | .next64 => some .next64
  | .next32 => some .next32
  | .nextraw => some .nextraw
  | .getstate => some .getstate
  | .setstate s0 s1 s2 s3 h c =>
      some (.setstate
        ⟨⟨BitVec.ofNat 64 s0, BitVec.ofNat 64 s1, BitVec.ofNat 64 s2, BitVec.ofNat 64 s3⟩, h == 1, BitVec.ofNat 32 c⟩)
  | .setstate4 s0 s1 s2 s3 =>
      some (.setstate
        ⟨⟨BitVec.ofNat 64 s0, BitVec.ofNat 64 s1, BitVec.ofNat 64 s2, BitVec.ofNat 64 s3⟩, false, 0⟩)
  | .raw _ => none

/-- Five 64-bit lanes on a bus, lane 0 lowest (20_memory.md R43). -/
def packLanes (l0 l1 l2 l3 l4 : Word) : SnapshotBus := l4 ++ l3 ++ l2 ++ l1 ++ l0

/-- Lane 4 of `SETSTATE s0, s1, s2, s3, h, c`: `(h << 32) | c` (R72). -/
def lane4 (h c : Nat) : Word := (BitVec.ofNat 64 h <<< 32) ||| BitVec.ofNat 64 c

/-- What a well-formed line puts on the command port (R72): the byte, the operands on their bus, an unused bus zero.
A line with an operand out of range puts nothing. -/
def assemble (l : AsmLine) : Option Command :=
  if l.wf then
    match l with
    | .seed w0 w1 w2 =>
        some ⟨0x01, packSeed (BitVec.ofNat 64 w0) (BitVec.ofNat 64 w1) (BitVec.ofNat 64 w2), 0⟩
    | .seed2 w0 w1 => some ⟨0x01, packSeed (BitVec.ofNat 64 w0) (BitVec.ofNat 64 w1) 0, 0⟩
    | .next64 => some (rawCommand 0x02)
    | .next32 => some (rawCommand 0x03)
    | .nextraw => some (rawCommand 0x04)
    | .getstate => some (rawCommand 0x05)
    | .setstate s0 s1 s2 s3 h c =>
        some ⟨0x06, 0, packLanes (BitVec.ofNat 64 s0) (BitVec.ofNat 64 s1) (BitVec.ofNat 64 s2) (BitVec.ofNat 64 s3)
          (lane4 h c)⟩
    | .setstate4 s0 s1 s2 s3 =>
        some ⟨0x06, 0, packLanes (BitVec.ofNat 64 s0) (BitVec.ofNat 64 s1) (BitVec.ofNat 64 s2) (BitVec.ofNat 64 s3)
          (lane4 0 0)⟩
    | .raw byte => some (rawCommand (BitVec.ofNat 8 byte))
  else none

/-- White space between the parts of a line. -/
def isBlank (c : Char) : Bool := c == ' ' || c == '\t' || c == '\r'

/-- A line without its comment, which `;` starts, and without a listing's result, which `->` starts (R72). -/
def cutComment : List Char → List Char
  | [] => []
  | ';' :: _ => []
  | '-' :: '>' :: _ => []
  | c :: cs => c :: cutComment cs

/-- Characters without the white space around them. -/
def trim (cs : List Char) : List Char :=
  ((cs.dropWhile isBlank).reverse.dropWhile isBlank).reverse

/-- An operand list cut at its commas. -/
def splitCommas : List Char → List (List Char)
  | [] => [[]]
  | ',' :: cs => [] :: splitCommas cs
  | c :: cs =>
    match splitCommas cs with
    | []      => [[c]]
    | x :: xs => (c :: x) :: xs

/-- The value of a digit in base 16. -/
def digitValue (c : Char) : Option Nat :=
  if '0' ≤ c ∧ c ≤ '9' then some (c.toNat - 48)
  else if 'a' ≤ c ∧ c ≤ 'f' then some (c.toNat - 87)
  else if 'A' ≤ c ∧ c ≤ 'F' then some (c.toNat - 55)
  else none

/-- The number that one or more digits of a base write, most significant first. -/
def readDigits (base : Nat) : Nat → List Char → Option Nat
  | value, []      => some value
  | value, c :: cs =>
    match digitValue c with
    | some d => if d < base then readDigits base (value * base + d) cs else none
    | none   => none

/-- A literal in C syntax: hexadecimal with `0x`, or decimal (R72). Other C forms, a leading 0 among them, are not
read (log entry 6). -/
def readLiteral : List Char → Option Nat
  | '0' :: 'x' :: c :: cs => readDigits 16 0 (c :: cs)
  | '0' :: 'X' :: c :: cs => readDigits 16 0 (c :: cs)
  | ['0'] => some 0
  | '0' :: _ => none
  | c :: cs => readDigits 10 0 (c :: cs)
  | [] => none

/-- The operands of a line: none where nothing is written, else literals between commas. -/
def readOperands (cs : List Char) : Option (List Nat) :=
  if trim cs = [] then some [] else (splitCommas cs).mapM fun x => readLiteral (trim x)

/-- The syntax term of a mnemonic (in capitals) and its operands: the six commands of R72, the two pseudo-instructions
of R73, and `.cmd`. -/
def buildLine (mnemonic : List Char) (operands : List Nat) : Option AsmLine :=
  match operands with
  | [] =>
    if mnemonic = ['N', 'E', 'X', 'T', '6', '4'] then some .next64
    else if mnemonic = ['N', 'E', 'X', 'T', '3', '2'] then some .next32
    else if mnemonic = ['N', 'E', 'X', 'T', 'R', 'A', 'W'] then some .nextraw
    else if mnemonic = ['G', 'E', 'T', 'S', 'T', 'A', 'T', 'E'] then some .getstate
    else none
  | [byte] => if mnemonic = ['.', 'C', 'M', 'D'] then some (.raw byte) else none
  | [w0, w1] => if mnemonic = ['S', 'E', 'E', 'D'] then some (.seed2 w0 w1) else none
  | [w0, w1, w2] => if mnemonic = ['S', 'E', 'E', 'D'] then some (.seed w0 w1 w2) else none
  | [s0, s1, s2, s3] =>
    if mnemonic = ['S', 'E', 'T', 'S', 'T', 'A', 'T', 'E'] then some (.setstate4 s0 s1 s2 s3) else none
  | [s0, s1, s2, s3, h, c] =>
    if mnemonic = ['S', 'E', 'T', 'S', 'T', 'A', 'T', 'E'] then some (.setstate s0 s1 s2 s3 h c) else none
  | _ => none

/-- One line of text (R72): a mnemonic, then its operands. Mnemonics are case-insensitive. `none` for a line that holds
no command. -/
def readLine (text : List Char) : Option AsmLine :=
  let line := trim (cutComment text)
  let mnemonic := line.takeWhile fun c => !isBlank c
  match readOperands (line.drop mnemonic.length) with
  | some operands => buildLine (mnemonic.map Char.toUpper) operands
  | none          => none

end Sys2Proof.Machine
end

