-- ==== Sys2Proof/Machine/System.lean ====
section
/-! DEFINITION. Several CORE instances in one system (60_exceptions.md R150, 10_state.md R33): each has its own registers
and its own port, and nothing connects them. -/

namespace Sys2Proof.Machine

/-- Instance `k` takes one step; the others are not touched (R33). There is no instance past the end of the list. -/
def stepInstance : Nat → List State → Option (Host.Outcome (List State) Fault Refusal)
  | _, []          => none
  | 0, s :: rest   =>
    match step s with
    | .next t    => some (.next (t :: rest))
    | .fault f   => some (.fault f)
    | .refused r => some (.refused r)
  | k + 1, s :: rest =>
    match stepInstance k rest with
    | some (.next rest') => some (.next (s :: rest'))
    | some (.fault f)    => some (.fault f)
    | some (.refused r)  => some (.refused r)
    | none               => none

end Sys2Proof.Machine
end

