-- ==== Sys2Proof/Machine/Ports.lean ====
section
/-! DEFINITION. The same block seen at its ports, clock edge by clock edge (20_memory.md R44 to R47,
70_reset_and_hazards.md R160 to R170). `step` is the command-level machine the spec asks a model for (R6, R170: "the
model has no time"); this layer adds the handshake, the latency, the one-cycle response and a reset at any edge, around
the same meanings. The latency is an argument (R8). -/

namespace Sys2Proof.Machine

/-- The input ports in the cycle before a rising edge of `clk`, as that edge samples them (R44, R47). An operand that
changes at the edge is any value (70_reset_and_hazards.md R167): statements quantify over the sampled value. -/
structure PortIn where
  rst      : Bool
  cmdValid : Bool
  command  : Command
deriving DecidableEq, Repr

/-- The output ports in one cycle (R44). `rsp = none` is `rsp_valid` = 0, when the other response ports are
unspecified and may not be read (R46, U3). -/
structure PortOut where
  cmdReady : Bool
  rsp      : Option Response
  seeded   : Bool
deriving DecidableEq, Repr

/-- Where the block is in its one command (R47): none in flight; one in flight that responds after some more edges;
the response cycle. -/
inductive Phase where
  | idle
  | busy (c : Command) (edgesLeft : Nat)
  | responding
deriving DecidableEq, Repr

/-- The block at its ports: the registers, and the command in flight, which is not architectural (10_state.md R30). -/
structure Block where
  core  : State
  phase : Phase
deriving DecidableEq, Repr

/-- The latency of a command accepted while VALID is `valid`: `LAT(op)`, or `LAT(ERR)` for one that ends in an error
(R170). -/
def latencyOf (lat : Latency) (c : Command) (valid : Bool) : Nat :=
  match decodeByte c.cmd, checkStatus c valid with
  | .ok op, .ok => lat.op op
  | _, _        => lat.err

/-- The output ports in the cycle in which the inputs are `i`; before the first reset they are unspecified (R163).
`cmd_ready` is 1 exactly when `rst` = 0 and no command is in flight, the response cycle included (R47); `rsp_valid` is 1
in the response cycle unless `rst` = 1 (R46, R160); `seeded` is VALID (R45). -/
def outputs (b : Block) (i : PortIn) : Option PortOut :=
  if b.core.wasReset then
    some {
      cmdReady := !i.rst && b.phase == .idle
      rsp := if !i.rst && b.phase == .responding then b.core.response else none
      seeded := b.core.valid }
  else none

/-- The edge at which the command in flight takes all its effects and its response cycle begins (R169). -/
def finish (c : Command) (b : Block) : Host.Outcome Block Fault Refusal :=
  match performCommand c b.core with
  | .next t    => .next ⟨t, .responding⟩
  | .fault f   => .fault f
  | .refused r => .refused r

/-- One rising edge of `clk`. Reset takes priority over everything (R146, R160, R161). A command is accepted when the
block is idle and `cmd_valid` = 1 (R47); its response cycle begins `LAT` edges later (R170, log entry 5); the edge
that ends the response cycle makes the block idle, and accepts nothing, `cmd_ready` being 0 there. -/
def edge (lat : Latency) (b : Block) (i : PortIn) : Host.Outcome Block Fault Refusal :=
  if i.rst then .next ⟨resetRegisters b.core, .idle⟩
  else if !b.core.wasReset then (if i.cmdValid then .fault .beforeReset else .next b)
  else
    match b.phase with
    | .idle =>
      if i.cmdValid then .next ⟨b.core, .busy i.command (latencyOf lat i.command b.core.valid)⟩ else .next b
    | .busy c edgesLeft =>
      if edgesLeft ≤ 1 then finish c b else .next ⟨b.core, .busy c (edgesLeft - 1)⟩
    | .responding => .next ⟨holdIdle b.core, .idle⟩

/-- A sequence of edges, oldest first, stopping at the first fault or refusal. -/
def edges (lat : Latency) (b : Block) : List PortIn → Host.Outcome Block Fault Refusal
  | []      => .next b
  | i :: is =>
    match edge lat b i with
    | .next b'   => edges lat b' is
    | .fault f   => .fault f
    | .refused r => .refused r

/-- A block right after reset: idle, with no command in flight (10_state.md R31). -/
def Block.resetOf (v : Variant) : Block := ⟨State.resetOf v, .idle⟩

/-- A block to which power has been applied and no reset yet (R163). -/
def Block.powerUp (v : Variant) : Block := ⟨losePower (State.resetOf v), .idle⟩

end Sys2Proof.Machine
end

