-- ==== Sys2Proof/Safety.lean ====
section
/-! DEFINITION. The terms in which claims about runs are stated: sequences of commands, what the host sees of them, and
the invariants of the machine. -/

namespace Sys2Proof.Machine

/-- The state after one accepted command (the state itself, were the command to stop). -/
def after (c : Command) (s : State) : State :=
  match performCommand c s with
  | .next t    => t
  | .fault _   => s
  | .refused _ => s

/-- The state after a sequence of accepted commands, first one first. -/
def afterAll : List Command → State → State
  | [], s      => s
  | c :: cs, s => afterAll cs (after c s)

/-- The responses to a sequence of accepted commands, in order. -/
def answers : List Command → State → List (Option Response)
  | [], _      => []
  | c :: cs, s => (after c s).response :: answers cs (after c s)

/-- Whether a command byte is a draw (00_scope.md, glossary): NEXT64, NEXTRAW or NEXT32. -/
def isDraw (c : Command) : Bool :=
  match decodeByte c.cmd with
  | .ok .next64 | .ok .nextraw | .ok .next32 => true
  | _ => false

/-- What a response says that no earlier OUT can show through: status, `rsp_state`, and `rsp_data` where the command is
a draw that was performed (42_seed_state.md R133). -/
def visible (c : Command) (r : Response) : Status × SnapshotBus × Option Word :=
  (r.status, r.state, if isDraw c && r.status == .ok then some r.data else none)

/-- What the host sees of a sequence of commands, but for a stale OUT. -/
def seen (cs : List Command) (s : State) : List (Option (Status × SnapshotBus × Option Word)) :=
  List.zipWith (fun c r => r.map (visible c)) cs (answers cs s)

/-- The persisted state and what commands depend on beside it: two states that agree here give the same draws. -/
def SameGenerator (s t : State) : Prop :=
  s.variant = t.variant ∧ s.words = t.words ∧ s.hasCached = t.hasCached ∧ s.cachedValue = t.cachedValue ∧
    s.valid = t.valid

/-- Every register of 10_state.md R20 is the same in both states. -/
def SameRegisters (s t : State) : Prop :=
  s.words = t.words ∧ s.hasCached = t.hasCached ∧ s.cachedValue = t.cachedValue ∧ s.out = t.out ∧ s.valid = t.valid

/-- Every register of R20 holds its reset value (R31). -/
def RegistersAtReset (s : State) : Prop :=
  s.words = zeroWords ∧ s.hasCached = false ∧ s.cachedValue = 0 ∧ s.out = 0 ∧ s.valid = false

/-- A response tells the truth about the state it stands in (20_memory.md R46): its data is OUT, its snapshot is zero
or the state's own under status OK, and ERR_UNSEEDED is reported only while VALID = 0 (60_exceptions.md R140). -/
def ResponseTrue (s : State) (r : Response) : Prop :=
  r.data = s.out ∧ (r.state = 0 ∨ r.status = .ok ∧ r.state = (snapshotOf s).pack) ∧
    (r.status = .errUnseeded → s.valid = false) ∧ (r.state ≠ 0 → s.valid = true)

/-- The invariant of the machine: until it is seeded a reset block's registers hold their reset values (the zero words
are never used, 10_state.md R31), a block that was not reset shows no response (R163), and a response is true. -/
def StateInv (s : State) : Prop :=
  (s.wasReset = true → s.valid = false → RegistersAtReset s) ∧
    (∀ r, s.response = some r → s.wasReset = true ∧ ResponseTrue s r)

/-- The invariant of the block at its ports: a response is held exactly in the response cycle (20_memory.md R46), no
command is in flight before the first reset (R163), one in flight has at least one edge to go, and the registers meet
`StateInv`. -/
def BlockInv (b : Block) : Prop :=
  StateInv b.core ∧ (b.core.response.isSome ↔ b.phase = .responding) ∧
    (b.core.wasReset = false → b.phase = .idle) ∧ (∀ c n, b.phase = .busy c n → 1 ≤ n)

/-- A safe run never leaves this set: a next state, or one of the named stops of the outside world, never a refusal to
model an instruction. -/
def SafeOutcome : Host.Outcome State Fault Refusal → Prop
  | .next t    => StateInv t
  | .fault f   => f = .beforeReset
  | .refused r => r = .unarbitratedHosts ∨ ∃ op, r = .outsideCore op

end Sys2Proof.Machine
end

