-- ==== Sys2Proof/Certificates/Slice0/Obligations.lean ====
section
/-! DEFINITION. The statements about the model, one definition each; each says which rules of spec/ it rests on. -/

open Sys2Proof Sys2Proof.Machine

/-! ## Encoding -/

/-- 30_encoding.md R63, R68, R69: no bit of an encoding is dropped. Every port value that decodes to an instruction
carries that instruction's byte, and its operands on their bus (SETSTATE's spare bits, 289 to 319, apart). -/
def Obligations.DecodeAndEncodeAgree : Prop :=
  ∀ i : Instr, i.wf = true →
    decode (encode i) = .ok i ∧
    ∀ c : Command, decode c = .ok i →
      c.cmd = (encode i).cmd ∧
      (i.opcode = .seed → c.seedIn = (encode i).seedIn) ∧
      (i.opcode = .setstate → ∀ k, k < 289 → c.stateIn.getLsbD k = (encode i).stateIn.getLsbD k)

/-- 30_encoding.md R64: every byte has exactly one outcome; `0x01` to `0x06` are the commands of the opcode map (R63),
the other 250 bytes end in ERR_RESERVED. -/
def Obligations.EveryByteDecodesToItsOpcodeMapRow : Prop :=
  ∀ c : Command,
    (c.cmd = 0x01#8 ↔ ∃ w0 w1 w2, decode c = .ok (.seed w0 w1 w2)) ∧
    (c.cmd = 0x02#8 ↔ decode c = .ok .next64) ∧
    (c.cmd = 0x03#8 ↔ decode c = .ok .next32) ∧
    (c.cmd = 0x04#8 ↔ decode c = .ok .nextraw) ∧
    (c.cmd = 0x05#8 ↔ decode c = .ok .getstate) ∧
    (c.cmd = 0x06#8 ↔ ∃ x, decode c = .ok (.setstate x)) ∧
    ((c.cmd.toNat = 0 ∨ 7 ≤ c.cmd.toNat) ↔ ∃ e, decode c = .error e) ∧
    ∀ s e, decode c = .error e →
      ∃ t r, performCommand c s = .next t ∧ t.response = some r ∧ r.status = .errReserved

/-- 30_encoding.md R63: the six command bytes, bit by bit, and reserved bytes of each kind (R65, R66, R67). -/
def Obligations.WrittenOutBytesDecode : Prop :=
  decodeTableWord 8 0b00000001 = some (.seed 0 0 0) ∧
  decodeTableWord 8 0b00000010 = some .next64 ∧
  decodeTableWord 8 0b00000011 = some .next32 ∧
  decodeTableWord 8 0b00000100 = some .nextraw ∧
  decodeTableWord 8 0b00000101 = some .getstate ∧
  decodeTableWord 8 0b00000110 = some (.setstate ⟨⟨0, 0, 0, 0⟩, false, 0⟩) ∧
  decodeTableWord 8 0b00000000 = none ∧
  decodeTableWord 8 0b00000111 = none ∧
  decodeTableWord 8 0b00001010 = none ∧
  decodeTableWord 8 0b11111111 = none

/-- 30_encoding.md R70: SEED's operands come from `seed_in`, SETSTATE's from `state_in`, and a command's result depends
on its byte and on the bus it uses alone. -/
def Obligations.UnusedBusCannotAffectACommand : Prop :=
  (∀ (c c' : Command) (s : State),
    c.cmd = c'.cmd →
    (c.cmd = 0x01#8 → c.seedIn = c'.seedIn) →
    (c.cmd = 0x06#8 → ∀ k, k < 289 → c.stateIn.getLsbD k = c'.stateIn.getLsbD k) →
    performCommand c s = performCommand c' s) ∧
  (∀ (c : Command) (s : State), c.cmd = 0x01#8 →
    performCommand c s = exec (.seed (c.seedIn.extractLsb' 0 64) (c.seedIn.extractLsb' 64 64)
      (c.seedIn.extractLsb' 128 64)) s) ∧
  (∀ (c : Command) (s : State), c.cmd = 0x06#8 →
    performCommand c s = exec (.setstate ⟨⟨c.stateIn.extractLsb' 0 64, c.stateIn.extractLsb' 64 64,
      c.stateIn.extractLsb' 128 64, c.stateIn.extractLsb' 192 64⟩, c.stateIn.getLsbD 288,
      c.stateIn.extractLsb' 256 32⟩) s)

/-- 30_encoding.md R68: the lanes of `seed_in`; gjrand reads lanes 0 and 1 and ignores lane 2, jsf64 reads all three (a
lane that is read and differs gives other state words), and no other command reads the bus. -/
def Obligations.SeedBusLanesReachTheirVariant : Prop :=
  (∀ c : Command, c.cmd = 0x01#8 →
    ∃ w0 w1 w2 : Word, decode c = .ok (.seed w0 w1 w2) ∧
      ∀ j, j < 64 → w0.getLsbD j = c.seedIn.getLsbD j ∧ w1.getLsbD j = c.seedIn.getLsbD (64 + j) ∧
        w2.getLsbD j = c.seedIn.getLsbD (128 + j)) ∧
  (∀ (s : State) (w0 w1 w2 w2' : Word), s.variant = .gjrand →
    exec (.seed w0 w1 w2) s = exec (.seed w0 w1 w2') s) ∧
  (∀ (s : State) (w0 w1 w2 w0' w1' w2' : Word),
    ∃ t t', exec (.seed w0 w1 w2) s = .next t ∧ exec (.seed w0' w1' w2') s = .next t' ∧
      (t.words = t'.words → w0 = w0' ∧ w1 = w1' ∧ (s.variant = .jsf64 → w2 = w2'))) ∧
  (∀ (s : State) (b : Byte) (x x' : SeedBus) (y : SnapshotBus), b ≠ 0x01#8 →
    performCommand ⟨b, x, y⟩ s = performCommand ⟨b, x', y⟩ s)

/-- 30_encoding.md R72, R73: every well-formed line is assembled; it decodes to the instruction it writes; `.cmd` puts
a reserved byte on the port with both buses zero; the two pseudo-instructions are their expansions. That an ill-formed
line (an operand out of its range, `.cmd` with a byte from 0x01 to 0x06) is not assembled is the model's choice, not a
rule's words: log entry 6. -/
def Obligations.AssembledLineDecodesToWhatItWrites : Prop :=
  (∀ l : AsmLine, l.wf = true → ∃ c, assemble l = some c ∧
    (∀ i, asmInstr l = some i → decode c = .ok i) ∧
    (asmInstr l = none → (∃ e, decode c = .error e) ∧ c.seedIn = 0 ∧ c.stateIn = 0)) ∧
  (∀ l : AsmLine, l.wf = false → assemble l = none) ∧
  (∀ w0 w1, assemble (.seed2 w0 w1) = assemble (.seed w0 w1 0)) ∧
  (∀ s0 s1 s2 s3, assemble (.setstate4 s0 s1 s2 s3) = assemble (.setstate s0 s1 s2 s3 0 0))

/-! ## The transition functions -/

/-- 00_scope.md R11, 40_transition.md R89: the rotation moves bit `i - r` to bit `i`, and is the native rotation. -/
def Obligations.RotationIsCircular : Prop :=
  ∀ (v : Word) (r : Nat), 1 ≤ r → r ≤ 63 →
    (∀ i, i < 64 → (rotl64 v r).getLsbD i = v.getLsbD ((i + 64 - r) % 64)) ∧
    rotl64 v r = v.rotateLeft r

/-- 40_transition.md R84, R87: each transition is a bijection on the states, undone by the stated inverse. -/
def Obligations.TransitionsAreBijections : Prop :=
  ∀ v : Variant,
    (∀ w, invTransition v (transition v w).1 = w) ∧
    (∀ w, (transition v (invTransition v w)).1 = w) ∧
    Function.Bijective (fun w => (transition v w).1)

/-- 40_transition.md R82, R85: the surfaced output is the new S[0] (gjrand) or the new S[3] (jsf64), and each word of
jsf64's result reads the words the rule says (R86): S[3]' is e plus the NEW S[0]. -/
def Obligations.TransitionOutputIsAStateWord : Prop :=
  ∀ w : Words,
    (stepGjrand w).2 = (stepGjrand w).1.s0 ∧
    (stepGjrand w).1.s3 = w.s3 + 0x0000000055AA96A5#64 ∧
    (stepJsf64 w).2 = (stepJsf64 w).1.s3 ∧
    (stepJsf64 w).1.s3 = (w.s0 - w.s1.rotateLeft 7) + (w.s1 ^^^ w.s2.rotateLeft 13) ∧
    (stepJsf64 w).1.s0 = w.s1 ^^^ w.s2.rotateLeft 13 ∧
    (stepJsf64 w).1.s1 = w.s2 + w.s3.rotateLeft 37 ∧
    (stepJsf64 w).1.s2 = w.s3 + (w.s0 - w.s1.rotateLeft 7)

/-- 40_transition.md R83: S[3] of gjrand counts transitions, so no transition sequence closes before a multiple of 2^64,
no state is fixed, and SEED leaves `0x00000004AF543D06` there. -/
def Obligations.GjrandFourthWordIsACounter : Prop :=
  (∀ (n : Nat) (w : Words),
    (advance .gjrand n w).s3 = w.s3 + BitVec.ofNat 64 n * 0x0000000055AA96A5#64) ∧
  (∀ (n : Nat) (w : Words), (advance .gjrand n w).s3 = w.s3 → 2 ^ 64 ∣ n) ∧
  (∀ (n : Nat) (w : Words), advance .gjrand n w = w → 2 ^ 64 ∣ n) ∧
  (∀ w : Words, (stepGjrand w).1 ≠ w) ∧
  (∀ w0 w1 w2 : Word, (seededWords .gjrand w0 w1 w2).s3 = 0x00000004AF543D06#64)

/-- 40_transition.md R88: jsf64's all-zero state is absorbing: with an output buffer that is empty or holds 0 every draw
answers 0, for ever. With a half that SETSTATE left pending, "the next NEXT32 returns the restored CACHED_VALUE with no
transition, whatever S holds" (41_output.md R104, corner cases; R105): that value is answered once, and every draw before
it and after it answers 0. R88's words make no exception for
that one draw; that R104 holds for it is the model's reading, log entry 9. Nothing else leads
to the zero state: SEED never does, nor any number of transitions after it. -/
def Obligations.Jsf64ZeroStateAbsorbsAndIsNeverSeeded : Prop :=
  (∀ (s : State) (cs : List Command), s.variant = .jsf64 → s.valid = true → s.words = ⟨0, 0, 0, 0⟩ →
    (s.hasCached = true → s.cachedValue = 0) → (∀ c ∈ cs, isDraw c = true) →
    (afterAll cs s).words = ⟨0, 0, 0, 0⟩ ∧ ∀ a ∈ answers cs s, a = some ⟨.ok, 0, 0⟩) ∧
  (∀ (s : State) (cs ds : List Command) (c : Command),
    s.variant = .jsf64 → s.valid = true → s.words = ⟨0, 0, 0, 0⟩ → s.hasCached = true →
    (∀ d ∈ cs, d.cmd = 0x02#8 ∨ d.cmd = 0x04#8) → c.cmd = 0x03#8 → (∀ d ∈ ds, isDraw d = true) →
    (∀ a ∈ answers cs s, a = some ⟨.ok, 0, 0⟩) ∧
    (after c (afterAll cs s)).response = some ⟨.ok, BitVec.ofNat 64 s.cachedValue.toNat, 0⟩ ∧
    (∀ a ∈ answers ds (after c (afterAll cs s)), a = some ⟨.ok, 0, 0⟩) ∧
    (afterAll ds (after c (afterAll cs s))).words = ⟨0, 0, 0, 0⟩) ∧
  (∀ w : Words, (stepJsf64 w).1 = ⟨0, 0, 0, 0⟩ → w = ⟨0, 0, 0, 0⟩) ∧
  (∀ (n : Nat) (w0 w1 w2 : Word), advance .jsf64 n (seededWords .jsf64 w0 w1 w2) ≠ ⟨0, 0, 0, 0⟩)

/-! ## The instructions: what each one does, and that it does nothing else -/

/-- 42_seed_state.md R121, R123, R124: SEED completes in every state. Placement, 14 or 20 transitions, the buffer
cleared, VALID set; OUT is shown unchanged, and everything else is as before. -/
def Obligations.SeedPlacesWarmsUpAndClears : Prop :=
  ∀ (s : State) (w0 w1 w2 : Word),
    exec (.seed w0 w1 w2) s = .next { s with
      words :=
        match s.variant with
        | .gjrand => advance .gjrand 14 ⟨w0, w1, 2000001, 0⟩
        | .jsf64 => advance .jsf64 20 ⟨0x00000000F1EA5EED, w0, w1, w2⟩
      hasCached := false
      cachedValue := 0
      valid := true
      response := some ⟨.ok, s.out, 0⟩ }

/-- 41_output.md R100, R102, R103: while VALID = 1 each 64-bit draw completes: exactly one transition, its output in OUT
and in the response, nothing else written (the frame). NEXTRAW and NEXT64 agree in every state, the unseeded ones too. -/
def Obligations.SixtyFourBitDrawsAdvanceOnce : Prop :=
  (∀ (i : Instr) (s : State), i = .next64 ∨ i = .nextraw → s.valid = true →
    exec i s = .next { s with
      words := (transition s.variant s.words).1
      out := (transition s.variant s.words).2
      response := some ⟨.ok, (transition s.variant s.words).2, 0⟩ }) ∧
  (∀ s : State, exec .nextraw s = exec .next64 s)

/-- 41_output.md R105: NEXT32 with HAS_CACHED = 1 completes with no transition: the flag is cleared, the cached value is
kept and returned, nothing else is written. -/
def Obligations.Next32HitReturnsTheCachedHalf : Prop :=
  ∀ s : State, s.valid = true → s.hasCached = true →
    exec .next32 s = .next { s with
      hasCached := false
      out := BitVec.ofNat 64 s.cachedValue.toNat
      response := some ⟨.ok, BitVec.ofNat 64 s.cachedValue.toNat, 0⟩ }

/-- 41_output.md R106: NEXT32 with HAS_CACHED = 0 completes: one transition, the output split by 2^32, the low half
returned, the high half kept with the flag set, nothing else written. -/
def Obligations.Next32MissSplitsOneDraw : Prop :=
  ∀ s : State, s.valid = true → s.hasCached = false →
    ∃ t, exec .next32 s = .next t ∧
      t.words = (transition s.variant s.words).1 ∧
      t.hasCached = true ∧
      t.cachedValue.toNat = (transition s.variant s.words).2.toNat / 2 ^ 32 ∧
      t.out.toNat = (transition s.variant s.words).2.toNat % 2 ^ 32 ∧
      t.response = some ⟨.ok, t.out, 0⟩ ∧
      t.valid = s.valid ∧ t.variant = s.variant ∧ t.wasReset = s.wasReset ∧ t.host = s.host

/-- 42_seed_state.md R128, 30_encoding.md R69: GETSTATE completes while VALID = 1, writes no register, and shows every
snapshot field at its place on `rsp_state`, the spare bits 0. -/
def Obligations.GetstateShowsTheSnapshot : Prop :=
  ∀ s : State, s.valid = true →
    ∃ bus : SnapshotBus,
      exec .getstate s = .next { s with response := some ⟨.ok, s.out, bus⟩ } ∧
      bus.extractLsb' 0 64 = s.words.s0 ∧
      bus.extractLsb' 64 64 = s.words.s1 ∧
      bus.extractLsb' 128 64 = s.words.s2 ∧
      bus.extractLsb' 192 64 = s.words.s3 ∧
      bus.extractLsb' 256 32 = s.cachedValue ∧
      bus.getLsbD 288 = s.hasCached ∧
      ∀ k, 289 ≤ k → bus.getLsbD k = false

/-- 42_seed_state.md R131: SETSTATE completes in every state, installing every field of the bus verbatim, spare bits
ignored, VALID set, OUT unchanged and nothing else written. -/
def Obligations.SetstateInstallsTheSnapshot : Prop :=
  (∀ (s : State) (x : Snapshot),
    exec (.setstate x) s = .next { s with
      words := x.words
      hasCached := x.hasCached
      cachedValue := x.cachedValue
      valid := true
      response := some ⟨.ok, s.out, 0⟩ }) ∧
  (∀ (s : State) (c : Command), c.cmd = 0x06#8 →
    performCommand c s = .next { s with
      words := ⟨c.stateIn.extractLsb' 0 64, c.stateIn.extractLsb' 64 64, c.stateIn.extractLsb' 128 64,
        c.stateIn.extractLsb' 192 64⟩
      hasCached := c.stateIn.getLsbD 288
      cachedValue := c.stateIn.extractLsb' 256 32
      valid := true
      response := some ⟨.ok, s.out, 0⟩ })

/-- 60_exceptions.md R141, R142: while VALID = 0 a draw or GETSTATE takes the error ERR_UNSEEDED: the response is the
error, OUT and a zero snapshot, and no register is written. -/
def Obligations.UnseededCommandReportsAndWritesNothing : Prop :=
  ∀ (i : Instr) (s : State), i = .next64 ∨ i = .nextraw ∨ i = .next32 ∨ i = .getstate → s.valid = false →
    exec i s = .next { s with response := some ⟨.errUnseeded, s.out, 0⟩ }

/-! ## One command: checks, errors, responses -/

/-- A step performs the decoded instruction on the state without that event (60_exceptions.md R141, 00_scope.md R6). The
second clause is about withFetchWord, which is the model's and no rule's: that it sets the reset flag of any block (log
entry 3) and puts zero on both operand buses (log entry 13) is the model's choice; the step then performs that byte. -/
def Obligations.StepPerformsTheDecodedInstruction : Prop :=
  (∀ (s : State) (c : Command) (rest : List HostEvent) (i : Instr),
    s.wasReset = true → s.host = .command c :: rest → decode c = .ok i →
    step s = exec i { s with host := rest }) ∧
  (∀ (s : State) (w : Nat) (i : Instr), decodeTableWord 8 w = some i →
    step (s.withFetchWord 8 w) = exec i { s with wasReset := true })

/-- 30_encoding.md R65, R67 and R66: a byte with a reserved bit set, `0x00` or `0x07` ends in ERR_RESERVED and changes no
register, whether the block is seeded or not. -/
def Obligations.ReservedByteChangesNothing : Prop :=
  ∀ (s : State) (c : Command) (rest : List HostEvent),
    s.wasReset = true → s.host = .command c :: rest →
    (c.cmd.extractLsb' 3 5 ≠ 0#5 ∨ c.cmd.extractLsb' 0 3 = 0b000#3 ∨ c.cmd.extractLsb' 0 3 = 0b111#3) →
    step s = .next { s with host := rest, response := some ⟨.errReserved, s.out, 0⟩ }

/-- 60_exceptions.md R140, R141: every accepted command gets one response, with the status that the checks give in their
order; where it is OK the operation that the byte decodes to was performed; the codes are as in the table and `11` is
none of them. -/
def Obligations.StatusFollowsTheOrderOfTheChecks : Prop :=
  (∀ (s : State) (c : Command) (rest : List HostEvent),
    s.wasReset = true → s.host = .command c :: rest →
    ∃ t r, step s = .next t ∧ t.response = some r ∧
      (r.status =
        if c.cmd.toNat = 0 ∨ 7 ≤ c.cmd.toNat then .errReserved
        else if 2 ≤ c.cmd.toNat ∧ c.cmd.toNat ≤ 5 ∧ s.valid = false then .errUnseeded
        else .ok) ∧
      (r.status = .ok → ∃ i, decode c = .ok i ∧ step s = exec i { s with host := rest })) ∧
  Status.code .ok = 0b00#2 ∧ Status.code .errReserved = 0b01#2 ∧ Status.code .errUnseeded = 0b10#2 ∧
  ∀ st, Status.code st ≠ 0b11#2

/-- 60_exceptions.md R142, R144: a command whose response is an error leaves every register as it was, shows OUT and a
zero snapshot, and leaves nothing behind that changes a later command. -/
def Obligations.ErrorsArePrecise : Prop :=
  ∀ (s t : State) (c : Command) (rest : List HostEvent) (r : Response),
    s.host = .command c :: rest → step s = .next t → t.response = some r → r.status ≠ .ok →
    t = { s with host := rest, response := some ⟨r.status, s.out, 0⟩ } ∧
    ∀ d, performCommand d t = performCommand d { s with host := rest }

/-- 20_memory.md R46: `rsp_data` is OUT after the command, and `rsp_state` is the snapshot for a successful GETSTATE and 0
for every other response. -/
def Obligations.ResponseShowsOutAndSnapshot : Prop :=
  ∀ (s t : State) (c : Command) (r : Response),
    performCommand c s = .next t → t.response = some r →
    r.data = t.out ∧
    r.state = if c.cmd = 0x05#8 ∧ r.status = .ok then (snapshotOf t).pack else 0

/-- 10_state.md R21, R23, R24 (the lists of writers) and R3: what one command may write. A register that changed was
changed by a command of its list; CACHED_VALUE keeps its value on a hit; VARIANT, the reset flag and the host's events
are never written by a command. -/
def Obligations.RegistersChangeOnlyByTheirWriters : Prop :=
  ∀ (s t : State) (c : Command), performCommand c s = .next t →
    (t.words ≠ s.words →
      c.cmd = 0x01#8 ∨ c.cmd = 0x06#8 ∨
      s.valid = true ∧ (c.cmd = 0x02#8 ∨ c.cmd = 0x04#8 ∨ c.cmd = 0x03#8 ∧ s.hasCached = false)) ∧
    (t.hasCached ≠ s.hasCached →
      c.cmd = 0x01#8 ∨ c.cmd = 0x06#8 ∨ s.valid = true ∧ c.cmd = 0x03#8) ∧
    (t.cachedValue ≠ s.cachedValue →
      c.cmd = 0x01#8 ∨ c.cmd = 0x06#8 ∨ s.valid = true ∧ c.cmd = 0x03#8 ∧ s.hasCached = false) ∧
    t.variant = s.variant ∧ t.wasReset = s.wasReset ∧ t.host = s.host

/-- 10_state.md R26: OUT is written by a successful draw alone: the whole output by NEXT64 and NEXTRAW, a 32-bit result
zero-extended by NEXT32. Every response carries OUT as the command left it. -/
def Obligations.OutHoldsTheLastSuccessfulDraw : Prop :=
  ∀ (s t : State) (c : Command), performCommand c s = .next t →
    (¬ (s.valid = true ∧ (c.cmd = 0x02#8 ∨ c.cmd = 0x03#8 ∨ c.cmd = 0x04#8)) → t.out = s.out) ∧
    (s.valid = true → c.cmd = 0x02#8 ∨ c.cmd = 0x04#8 → t.out = (transition s.variant s.words).2) ∧
    (s.valid = true → c.cmd = 0x03#8 →
      t.out.toNat = if s.hasCached then s.cachedValue.toNat else (transition s.variant s.words).2.toNat % 2 ^ 32) ∧
    ∃ r, t.response = some r ∧ r.data = t.out

/-- 10_state.md R25: what sets and clears VALID over a whole step, whatever the step is, and that it drives `seeded`.
The first two clauses ask that VALID holds a value after the step: after a loss of power it holds none until the next
reset (60_exceptions.md R153, 70_reset_and_hazards.md R163). -/
def Obligations.ValidRisesBySeedingAndFallsByReset : Prop :=
  ∀ s t : State, step s = .next t →
    (t.wasReset = true → s.valid = true → t.valid = false → s.host.head? = some .reset) ∧
    (t.wasReset = true → s.valid = false → t.valid = true →
      ∃ c, s.host.head? = some (.command c) ∧ (c.cmd = 0x01#8 ∨ c.cmd = 0x06#8)) ∧
    (∀ c, s.host.head? = some (.command c) → c.cmd = 0x01#8 ∨ c.cmd = 0x06#8 → t.valid = true) ∧
    (s.host.head? = some .reset → t.valid = false) ∧
    (∀ c r, s.host.head? = some (.command c) → 2 ≤ c.cmd.toNat → c.cmd.toNat ≤ 5 → s.valid = false →
      t.response = some r → r.status = .errUnseeded ∧ SameRegisters s t) ∧
    (t.wasReset = true → seededPin t = some t.valid)

/-! ## Sequences of commands -/

/-- 20_memory.md R51: the host's commands take effect in their order, each on the state the one before it left. -/
def Obligations.CommandsTakeEffectInOrder : Prop :=
  ∀ (cs : List Command) (rest : List HostEvent) (s : State), s.wasReset = true →
    Host.Core.run core cs.length { s with host := cs.map .command ++ rest } =
      .next (afterAll cs { s with host := rest })

/-- 41_output.md R101: any number of 64-bit draws leaves the 32-bit buffer alone and answers the same whatever it holds,
each making its own transition, and a pending cached half is then returned by the next NEXT32, with no transition. -/
def Obligations.CachedHalfSurvivesSixtyFourBitDraws : Prop :=
  ∀ (s : State) (cs : List Command), s.valid = true → (∀ c ∈ cs, c.cmd = 0x02#8 ∨ c.cmd = 0x04#8) →
    (afterAll cs s).hasCached = s.hasCached ∧
    (afterAll cs s).cachedValue = s.cachedValue ∧
    (afterAll cs s).words = advance s.variant cs.length s.words ∧
    (∀ b x, answers cs { s with hasCached := b, cachedValue := x } = answers cs s) ∧
    (s.hasCached = true →
      (after (rawCommand 0x03) (afterAll cs s)).out.toNat = s.cachedValue.toNat ∧
      (after (rawCommand 0x03) (afterAll cs s)).words = (afterAll cs s).words)

/-- 41_output.md R107: two NEXT32 return the low and the high half of the word that one NEXT64 returns from the same
state words, both with an empty buffer, and end in the same words. Right after SEED the buffer is empty. -/
def Obligations.TwoHalvesMakeTheWholeDraw : Prop :=
  (∀ s t : State, s.variant = t.variant → s.words = t.words → s.valid = true → t.valid = true →
    s.hasCached = false → t.hasCached = false →
    ∃ a b w : Word,
      answers [rawCommand 0x03, rawCommand 0x03] s = [some ⟨.ok, a, 0⟩, some ⟨.ok, b, 0⟩] ∧
      answers [rawCommand 0x02] t = [some ⟨.ok, w, 0⟩] ∧
      a.toNat = w.toNat % 2 ^ 32 ∧ b.toNat = w.toNat / 2 ^ 32 ∧
      (afterAll [rawCommand 0x03, rawCommand 0x03] s).words = (afterAll [rawCommand 0x02] t).words) ∧
  (∀ (s : State) (c : Command), c.cmd = 0x01#8 → (after c s).hasCached = false)

/-- 41_output.md R108: how many transitions k NEXT32 commands make, and the flag they leave. -/
def Obligations.Next32RunMakesHalfAsManyTransitions : Prop :=
  ∀ (k : Nat) (s : State), s.valid = true →
    (s.hasCached = false →
      (afterAll (List.replicate k (rawCommand 0x03)) s).words = advance s.variant ((k + 1) / 2) s.words ∧
      ((afterAll (List.replicate k (rawCommand 0x03)) s).hasCached = true ↔ k % 2 = 1)) ∧
    (s.hasCached = true →
      (afterAll (List.replicate k (rawCommand 0x03)) s).words = advance s.variant (k / 2) s.words ∧
      ((afterAll (List.replicate k (rawCommand 0x03)) s).hasCached = true ↔ (k + 1) % 2 = 1))

/-- 41_output.md R109: NEXT32; NEXT64; NEXT32 from an empty buffer returns the low half of the first word, the whole
second word, then the high half of the first: two transitions. -/
def Obligations.MixedDrawsKeepTheFirstHighHalf : Prop :=
  ∀ s : State, s.valid = true → s.hasCached = false →
    ∃ w1 w2 a b : Word,
      w1 = (transition s.variant s.words).2 ∧
      w2 = (transition s.variant (transition s.variant s.words).1).2 ∧
      answers [rawCommand 0x03, rawCommand 0x02, rawCommand 0x03] s =
        [some ⟨.ok, a, 0⟩, some ⟨.ok, w2, 0⟩, some ⟨.ok, b, 0⟩] ∧
      a.toNat = w1.toNat % 2 ^ 32 ∧ b.toNat = w1.toNat / 2 ^ 32 ∧
      (afterAll [rawCommand 0x03, rawCommand 0x02, rawCommand 0x03] s).words = advance s.variant 2 s.words

/-- 42_seed_state.md R126: the first NEXT64 after SEED returns the output of transition N+1 from the placed words. -/
def Obligations.FirstDrawFollowsTheWarmUp : Prop :=
  ∀ (s : State) (w0 w1 w2 : Word),
    (s.variant = .gjrand →
      answers [encode (.seed w0 w1 w2), encode .next64] s =
        [some ⟨.ok, s.out, 0⟩, some ⟨.ok, (stepGjrand (advance .gjrand 14 ⟨w0, w1, 2000001, 0⟩)).2, 0⟩]) ∧
    (s.variant = .jsf64 →
      answers [encode (.seed w0 w1 w2), encode .next64] s =
        [some ⟨.ok, s.out, 0⟩, some ⟨.ok, (stepJsf64 (advance .jsf64 20 ⟨0xF1EA5EED, w0, w1, w2⟩)).2, 0⟩])

/-- 42_seed_state.md R125: what a SEED leaves depends on VARIANT and the seed words it consumes alone, and so do the
statuses, the snapshots and the draws that any later sequence of commands returns. The `rsp_data` of a response that is
no performed draw is left out: it shows OUT, which SEED does not write. -/
def Obligations.SeedErasesThePast : Prop :=
  ∀ (s t : State) (w0 w1 w2 w2' : Word) (cs : List Command),
    s.variant = t.variant → (w2 = w2' ∨ s.variant = .gjrand) →
    SameGenerator (after (encode (.seed w0 w1 w2)) s) (after (encode (.seed w0 w1 w2')) t) ∧
    (after (encode (.seed w0 w1 w2)) s).hasCached = false ∧
    (after (encode (.seed w0 w1 w2)) s).cachedValue = 0 ∧
    (after (encode (.seed w0 w1 w2)) s).valid = true ∧
    seen cs (after (encode (.seed w0 w1 w2)) s) = seen cs (after (encode (.seed w0 w1 w2')) t)

/-- 42_seed_state.md R133: GETSTATE answers x; after SETSTATE x, on any instance of the same variant and from whatever
state, every sequence of commands shows the host the same draws, snapshots and statuses as it would have right after that
GETSTATE. -/
def Obligations.RestoredSnapshotReplaysTheStream : Prop :=
  ∀ (s u : State) (seedIn : SeedBus) (cs : List Command), s.valid = true → s.variant = u.variant →
    ∃ r, (after (rawCommand 0x05) s).response = some r ∧ r.status = .ok ∧
      SameGenerator (after (rawCommand 0x05) s) (after ⟨0x06, seedIn, r.state⟩ u) ∧
      (after ⟨0x06, seedIn, r.state⟩ u).out = u.out ∧
      seen cs (after (rawCommand 0x05) s) = seen cs (after ⟨0x06, seedIn, r.state⟩ u)

/-- 10_state.md R22: the state words alone determine the 64-bit stream: two seeded instances of one variant with the same
words give the same responses to any sequence of 64-bit draws, whatever their buffers and OUT hold. -/
def Obligations.WordsDetermineTheSixtyFourBitStream : Prop :=
  ∀ (s t : State) (cs : List Command),
    s.variant = t.variant → s.words = t.words → s.valid = true → t.valid = true →
    (∀ c ∈ cs, c.cmd = 0x02#8 ∨ c.cmd = 0x04#8) →
    answers cs s = answers cs t ∧ (afterAll cs s).words = (afterAll cs t).words

/-- 20_memory.md R50: repeating a SEED or a SETSTATE with the same operands leaves the same S, HAS_CACHED, CACHED_VALUE and
VALID; GETSTATE changes no register, and repeating it returns the same snapshot. -/
def Obligations.SeedAndSetstateAreIdempotent : Prop :=
  (∀ (s : State) (c : Command), c.cmd = 0x01#8 ∨ c.cmd = 0x06#8 →
    SameGenerator (after c (after c s)) (after c s)) ∧
  (∀ (s : State) (c : Command), c.cmd = 0x05#8 →
    SameRegisters s (after c s) ∧ (after c (after c s)).response = (after c s).response)

/-- 70_reset_and_hazards.md R164: from reset, commands other than SEED and SETSTATE all report an error and change no
register, however many there are; the first SEED or SETSTATE then answers OK and makes the block seeded. -/
def Obligations.NothingIsDrawnBeforeSeeding : Prop :=
  ∀ (v : Variant) (cs : List Command), (∀ c ∈ cs, c.cmd ≠ 0x01#8 ∧ c.cmd ≠ 0x06#8) →
    RegistersAtReset (afterAll cs (State.resetOf v)) ∧
    (∀ a ∈ answers cs (State.resetOf v), a = some ⟨.errReserved, 0, 0⟩ ∨ a = some ⟨.errUnseeded, 0, 0⟩) ∧
    (∀ c, c.cmd = 0x01#8 ∨ c.cmd = 0x06#8 →
      (after c (afterAll cs (State.resetOf v))).response = some ⟨.ok, 0, 0⟩ ∧
      (after c (afterAll cs (State.resetOf v))).valid = true)

/-! ## Reset, power, the host, invariants -/

/-- 10_state.md R31: reset sets every register to its reset value from any state, and until the block is seeded every
command that would read the zero state words ends in ERR_UNSEEDED. -/
def Obligations.ResetZeroesEveryRegister : Prop :=
  ∀ (s : State) (rest : List HostEvent), s.host = .reset :: rest →
    ∃ t, step s = .next t ∧
      t.words = ⟨0, 0, 0, 0⟩ ∧ t.hasCached = false ∧ t.cachedValue = 0 ∧ t.out = 0 ∧ t.valid = false ∧
      t.response = none ∧ t.wasReset = true ∧ t.host = rest ∧ t.variant = s.variant ∧
      ∀ i, i = .next64 ∨ i = .nextraw ∨ i = .next32 ∨ i = .getstate →
        exec i t = .next { t with response := some ⟨.errUnseeded, 0, 0⟩ }

/-- 60_exceptions.md R153, 70_reset_and_hazards.md R163: with nothing to do the block holds its registers; after a loss
of power no register holds a value: the pin is unspecified, and a command presented before the first reset stops the
model with the fault that 93_implementation_defined.md U5 asks for (the fault's name and the event are the model's, log
entry 2). -/
def Obligations.IdleHoldsAndPowerLossNeedsReset : Prop :=
  (∀ s : State, s.host = [] → step s = .next { s with response := none }) ∧
  (∀ (s : State) (rest : List HostEvent), s.host = .powerCycle :: rest →
    ∃ t, step s = .next t ∧ t.wasReset = false ∧ t.host = rest ∧ seededPin t = none ∧ t.response = none) ∧
  (∀ (s : State) (c : Command) (rest : List HostEvent), s.wasReset = false → s.host = .command c :: rest →
    step s = .fault .beforeReset)

/-- 20_memory.md R56, 00_scope.md R5: the model refuses two unarbitrated hosts, and refuses by name an operation that is
not a CORE command (the events and names are the model's, log entry 7). -/
def Obligations.OutsideRequestsAreRefusedByName : Prop :=
  (∀ (s : State) (a b : Command) (rest : List HostEvent), s.host = .unarbitrated a b :: rest →
    step s = .refused .unarbitratedHosts) ∧
  (∀ (s : State) (op : OutsideOp) (rest : List HostEvent), s.host = .outsideCore op :: rest →
    step s = .refused (.outsideCore op))

/-- The invariants hold right after reset, for either variant, and at a block's power-up (10_state.md R31). -/
def Obligations.InvariantsHoldAtReset : Prop :=
  StateInv State.reset ∧ ∀ v, StateInv (State.resetOf v) ∧ BlockInv (Block.resetOf v) ∧ BlockInv (Block.powerUp v)

/-- From every state that meets the invariant a step gives one that meets it, or one of the named stops of the outside
world; no step refuses an instruction (10_state.md R31, 20_memory.md R46, 70_reset_and_hazards.md R163). -/
def Obligations.StepKeepsTheInvariant : Prop :=
  ∀ s : State, StateInv s → SafeOutcome (step s)

/-- 10_state.md R33, 60_exceptions.md R150: a step of instance k is that instance's own step, and no other instance's
state changes. -/
def Obligations.OtherInstancesAreUntouched : Prop :=
  (∀ (k : Nat) (sys sys' : List State), stepInstance k sys = some (.next sys') →
    sys'.length = sys.length ∧ (∀ j, j ≠ k → sys'[j]? = sys[j]?) ∧
    ∃ s t, sys[k]? = some s ∧ sys'[k]? = some t ∧ step s = .next t) ∧
  (∀ (k : Nat) (sys : List State) (s t : State), sys[k]? = some s → step s = .next t →
    ∃ sys', stepInstance k sys = some (.next sys'))

/-- 20_memory.md R43: whatever order of the 40 bytes the integrator chooses, a snapshot comes back bit for bit; other
numbers of bytes are refused (the form of the byte order is the model's, log entry 4). -/
def Obligations.SerializedSnapshotComesBack : Prop :=
  (∀ (order : ByteOrder) (bus : SnapshotBus),
    (serialize order bus).length = 40 ∧ deserialize order (serialize order bus) = some bus ∧
    ∀ k : Fin 40, (serialize order bus)[k.val]? = some (bus.extractLsb' (8 * (order k).val) 8)) ∧
  (∀ (order : ByteOrder) (bs : List Byte), bs.length ≠ 40 → deserialize order bs = none) ∧
  (∀ x : Snapshot, Snapshot.unpack x.pack = x)

/-! ## The block at its ports -/

/-- 20_memory.md R46, R47, R49, R51 and 70_reset_and_hazards.md R169, R170 (the cycle count is as in log entry 5): the
clocked block does what `step` does. A command accepted by an idle block responds exactly LAT edges later, whatever the
host drives meanwhile, unless it resets the block; the registers then are those the command-level step leaves, and until
then nothing but `cmd_ready` shows that a command is in flight. -/
def Obligations.ClockedBlockRefinesTheCommandStep : Prop :=
  ∀ (lat : Latency) (b : Block) (i : PortIn) (is : List PortIn),
    lat.wf → BlockInv b → b.core.wasReset = true → b.phase = .idle →
    i.rst = false → i.cmdValid = true → (∀ j ∈ is, j.rst = false) →
    is.length = latencyOf lat i.command b.core.valid →
    ∃ t, step { b.core with host := .command i.command :: b.core.host } = .next t ∧
      edges lat b (i :: is) = .next ⟨t, .responding⟩ ∧
      (∀ j : PortIn, j.rst = false →
        outputs ⟨t, .responding⟩ j = some ⟨false, t.response, t.valid⟩ ∧ t.response.isSome = true) ∧
      ∀ n, n < is.length →
        ∃ b', edges lat b (i :: is.take n) = .next b' ∧ b'.core = b.core ∧
          ∀ j : PortIn, j.rst = false → outputs b' j = some ⟨false, none, b.core.valid⟩

/-- 70_reset_and_hazards.md R160, R161, 60_exceptions.md R146: an edge with `rst` = 1 leaves the reset state from any
block, a command in flight included, which gets no response; in the first cycle after it the block is ready. What the
outputs show within the cycle in which `rst` = 1 (nothing ready, a response taken away, `seeded` still VALID) is the
model's reading of R160 (log entry 11), and so is that it is said only of a block that was reset before (log entry 8). -/
def Obligations.ResetAbortsWhateverIsInFlight : Prop :=
  ∀ (lat : Latency) (b : Block) (i : PortIn), i.rst = true →
    (b.core.wasReset = true → outputs b i = some ⟨false, none, b.core.valid⟩) ∧
    ∃ b', edge lat b i = .next b' ∧ RegistersAtReset b'.core ∧ b'.phase = .idle ∧ b'.core.response = none ∧
      b'.core.variant = b.core.variant ∧
      ∀ j : PortIn, j.rst = false → outputs b' j = some ⟨true, none, false⟩

/-- 20_memory.md R47, 70_reset_and_hazards.md R166, R167: while a command is in flight, its response cycle included, what
the host drives has no effect (reset apart), and an idle block that is offered no command reads no operand. -/
def Obligations.NothingIsAcceptedInFlight : Prop :=
  (∀ (lat : Latency) (b : Block) (i j : PortIn), b.core.wasReset = true → b.phase ≠ .idle →
    i.rst = false → j.rst = false →
    edge lat b i = edge lat b j ∧ ∃ o, outputs b i = some o ∧ o.cmdReady = false) ∧
  (∀ (lat : Latency) (b : Block) (i : PortIn), b.core.wasReset = true → b.phase = .idle →
    i.rst = false → i.cmdValid = false →
    edge lat b i = .next b ∧ ∃ o, outputs b i = some o ∧ o.cmdReady = true)

/-- 20_memory.md R46: `rsp_valid` is 1 for exactly one cycle: the edge that ends the response cycle takes the response
away, keeps every register, and leaves the block ready. -/
def Obligations.ResponseLastsOneCycle : Prop :=
  ∀ (lat : Latency) (b : Block) (i : PortIn), BlockInv b → b.phase = .responding → i.rst = false →
    (∃ o r, outputs b i = some o ∧ o.rsp = some r) ∧
    ∃ b', edge lat b i = .next b' ∧ SameRegisters b.core b'.core ∧
      ∀ j : PortIn, j.rst = false → outputs b' j = some ⟨true, none, b.core.valid⟩

/-- 70_reset_and_hazards.md R170: the latency is that of the opcode for a command that answers OK, and LAT(ERR) for one
whose response is an error. -/
def Obligations.LatencyGoesByTheStatus : Prop :=
  ∀ (lat : Latency) (s : State) (c : Command),
    ∃ t r, performCommand c s = .next t ∧ t.response = some r ∧
      (r.status ≠ .ok → latencyOf lat c s.valid = lat.err) ∧
      (r.status = .ok → ∃ i, decode c = .ok i ∧ latencyOf lat c s.valid = lat.op i.opcode)

/-- From every block that meets the port invariant, every edge gives one that meets it; the only stop is a command before
the first reset (20_memory.md R46, R47, 70_reset_and_hazards.md R163, R170). -/
def Obligations.EdgeKeepsThePortInvariant : Prop :=
  ∀ (lat : Latency) (b : Block) (i : PortIn), lat.wf → BlockInv b →
    match edge lat b i with
    | .next b'   => BlockInv b'
    | .fault f   => f = .beforeReset ∧ b.core.wasReset = false ∧ i.rst = false ∧ i.cmdValid = true
    | .refused _ => False
end

