-- ==== Sys2Proof/Laws/Encoding.lean ====
section
/-! SUPPORT. The bits of the operand buses, and the bytes of the opcodes. -/

namespace Sys2Proof

/-- A byte decodes to an opcode exactly when it is that opcode's byte. -/
theorem decodeByte_eq_ok_iff (b : Byte) (op : Opcode) : decodeByte b = .ok op ↔ b = opcodeByte op := by
  cases op <;> revert b <;> decide

/-- A byte is refused exactly when it is none of `0x01` to `0x06`. -/
theorem decodeByte_error_iff (b : Byte) : (∃ e, decodeByte b = .error e) ↔ b.toNat = 0 ∨ 7 ≤ b.toNat := by
  have key : ∀ b : Byte, (decodeByte b).toOption = none ↔ b.toNat = 0 ∨ 7 ≤ b.toNat := by decide
  rw [← key]
  cases decodeByte b <;> simp [Except.toOption]

@[simp] theorem decodeByte_opcodeByte (op : Opcode) : decodeByte (opcodeByte op) = .ok op := by
  cases op <;> rfl

/-- A bit of a lane is the bus's bit at 64 times the lane's number and on. -/
theorem lane_getLsbD {w : Nat} (bus : BitVec w) (i j : Nat) (h : j < 64) :
    (lane bus i).getLsbD j = bus.getLsbD (64 * i + j) := by
  simp [lane, h]

/-- The bits of the seed bus that `packSeed` makes. -/
theorem packSeed_getLsbD (w0 w1 w2 : Word) (k : Nat) : (packSeed w0 w1 w2).getLsbD k =
    if k < 64 then w0.getLsbD k else if k < 128 then w1.getLsbD (k - 64) else w2.getLsbD (k - 128) := by
  simp only [packSeed, BitVec.getLsbD_append]
  grind

/-- The bits of the snapshot bus that `Snapshot.pack` makes. -/
theorem Snapshot.pack_getLsbD (x : Snapshot) (k : Nat) : x.pack.getLsbD k =
    if k < 64 then x.words.s0.getLsbD k
    else if k < 128 then x.words.s1.getLsbD (k - 64)
    else if k < 192 then x.words.s2.getLsbD (k - 128)
    else if k < 256 then x.words.s3.getLsbD (k - 192)
    else if k < 288 then x.cachedValue.getLsbD (k - 256)
    else k == 288 && x.hasCached := by
  simp only [Snapshot.pack, BitVec.getLsbD_append, BitVec.getLsbD_ofBool]
  by_cases h : k = 288
  · subst h; simp
  · grind

end Sys2Proof
end

