-- ==== Sys2Proof/Laws/State.lean ====
section
/-! SUPPORT. What each named update of State leaves in each field, one lemma a field, true by rfl. -/

namespace Sys2Proof.Machine

variable (s : State)

@[simp] theorem respond_variant (st : Status) (x : SnapshotBus) : (respond st x s).variant = s.variant := rfl
@[simp] theorem respond_words (st : Status) (x : SnapshotBus) : (respond st x s).words = s.words := rfl
@[simp] theorem respond_hasCached (st : Status) (x : SnapshotBus) : (respond st x s).hasCached = s.hasCached := rfl
@[simp] theorem respond_cachedValue (st : Status) (x : SnapshotBus) : (respond st x s).cachedValue = s.cachedValue := rfl
@[simp] theorem respond_out (st : Status) (x : SnapshotBus) : (respond st x s).out = s.out := rfl
@[simp] theorem respond_valid (st : Status) (x : SnapshotBus) : (respond st x s).valid = s.valid := rfl
@[simp] theorem respond_wasReset (st : Status) (x : SnapshotBus) : (respond st x s).wasReset = s.wasReset := rfl
@[simp] theorem respond_response (st : Status) (x : SnapshotBus) : (respond st x s).response = some ⟨st, s.out, x⟩ := rfl
@[simp] theorem respond_host (st : Status) (x : SnapshotBus) : (respond st x s).host = s.host := rfl

@[simp] theorem raise_variant (st : Status) : (raise st s).variant = s.variant := rfl
@[simp] theorem raise_words (st : Status) : (raise st s).words = s.words := rfl
@[simp] theorem raise_hasCached (st : Status) : (raise st s).hasCached = s.hasCached := rfl
@[simp] theorem raise_cachedValue (st : Status) : (raise st s).cachedValue = s.cachedValue := rfl
@[simp] theorem raise_out (st : Status) : (raise st s).out = s.out := rfl
@[simp] theorem raise_valid (st : Status) : (raise st s).valid = s.valid := rfl
@[simp] theorem raise_wasReset (st : Status) : (raise st s).wasReset = s.wasReset := rfl
@[simp] theorem raise_response (st : Status) : (raise st s).response = some ⟨st, s.out, 0⟩ := rfl
@[simp] theorem raise_host (st : Status) : (raise st s).host = s.host := rfl

@[simp] theorem setWords_variant (w : Words) : (setWords w s).variant = s.variant := rfl
@[simp] theorem setWords_words (w : Words) : (setWords w s).words = w := rfl
@[simp] theorem setWords_hasCached (w : Words) : (setWords w s).hasCached = s.hasCached := rfl
@[simp] theorem setWords_cachedValue (w : Words) : (setWords w s).cachedValue = s.cachedValue := rfl
@[simp] theorem setWords_out (w : Words) : (setWords w s).out = s.out := rfl
@[simp] theorem setWords_valid (w : Words) : (setWords w s).valid = s.valid := rfl
@[simp] theorem setWords_wasReset (w : Words) : (setWords w s).wasReset = s.wasReset := rfl
@[simp] theorem setWords_response (w : Words) : (setWords w s).response = s.response := rfl
@[simp] theorem setWords_host (w : Words) : (setWords w s).host = s.host := rfl

@[simp] theorem setOut_variant (v : Word) : (setOut v s).variant = s.variant := rfl
@[simp] theorem setOut_words (v : Word) : (setOut v s).words = s.words := rfl
@[simp] theorem setOut_hasCached (v : Word) : (setOut v s).hasCached = s.hasCached := rfl
@[simp] theorem setOut_cachedValue (v : Word) : (setOut v s).cachedValue = s.cachedValue := rfl
@[simp] theorem setOut_out (v : Word) : (setOut v s).out = v := rfl
@[simp] theorem setOut_valid (v : Word) : (setOut v s).valid = s.valid := rfl
@[simp] theorem setOut_wasReset (v : Word) : (setOut v s).wasReset = s.wasReset := rfl
@[simp] theorem setOut_response (v : Word) : (setOut v s).response = s.response := rfl
@[simp] theorem setOut_host (v : Word) : (setOut v s).host = s.host := rfl

@[simp] theorem fillBuffer_variant (h : Half) : (fillBuffer h s).variant = s.variant := rfl
@[simp] theorem fillBuffer_words (h : Half) : (fillBuffer h s).words = s.words := rfl
@[simp] theorem fillBuffer_hasCached (h : Half) : (fillBuffer h s).hasCached = true := rfl
@[simp] theorem fillBuffer_cachedValue (h : Half) : (fillBuffer h s).cachedValue = h := rfl
@[simp] theorem fillBuffer_out (h : Half) : (fillBuffer h s).out = s.out := rfl
@[simp] theorem fillBuffer_valid (h : Half) : (fillBuffer h s).valid = s.valid := rfl
@[simp] theorem fillBuffer_wasReset (h : Half) : (fillBuffer h s).wasReset = s.wasReset := rfl
@[simp] theorem fillBuffer_response (h : Half) : (fillBuffer h s).response = s.response := rfl
@[simp] theorem fillBuffer_host (h : Half) : (fillBuffer h s).host = s.host := rfl

@[simp] theorem drainBuffer_variant : (drainBuffer s).variant = s.variant := rfl
@[simp] theorem drainBuffer_words : (drainBuffer s).words = s.words := rfl
@[simp] theorem drainBuffer_hasCached : (drainBuffer s).hasCached = false := rfl
@[simp] theorem drainBuffer_cachedValue : (drainBuffer s).cachedValue = s.cachedValue := rfl
@[simp] theorem drainBuffer_out : (drainBuffer s).out = s.out := rfl
@[simp] theorem drainBuffer_valid : (drainBuffer s).valid = s.valid := rfl
@[simp] theorem drainBuffer_wasReset : (drainBuffer s).wasReset = s.wasReset := rfl
@[simp] theorem drainBuffer_response : (drainBuffer s).response = s.response := rfl
@[simp] theorem drainBuffer_host : (drainBuffer s).host = s.host := rfl

@[simp] theorem clearBuffer_variant : (clearBuffer s).variant = s.variant := rfl
@[simp] theorem clearBuffer_words : (clearBuffer s).words = s.words := rfl
@[simp] theorem clearBuffer_hasCached : (clearBuffer s).hasCached = false := rfl
@[simp] theorem clearBuffer_cachedValue : (clearBuffer s).cachedValue = 0 := rfl
@[simp] theorem clearBuffer_out : (clearBuffer s).out = s.out := rfl
@[simp] theorem clearBuffer_valid : (clearBuffer s).valid = s.valid := rfl
@[simp] theorem clearBuffer_wasReset : (clearBuffer s).wasReset = s.wasReset := rfl
@[simp] theorem clearBuffer_response : (clearBuffer s).response = s.response := rfl
@[simp] theorem clearBuffer_host : (clearBuffer s).host = s.host := rfl

@[simp] theorem markSeeded_variant : (markSeeded s).variant = s.variant := rfl
@[simp] theorem markSeeded_words : (markSeeded s).words = s.words := rfl
@[simp] theorem markSeeded_hasCached : (markSeeded s).hasCached = s.hasCached := rfl
@[simp] theorem markSeeded_cachedValue : (markSeeded s).cachedValue = s.cachedValue := rfl
@[simp] theorem markSeeded_out : (markSeeded s).out = s.out := rfl
@[simp] theorem markSeeded_valid : (markSeeded s).valid = true := rfl
@[simp] theorem markSeeded_wasReset : (markSeeded s).wasReset = s.wasReset := rfl
@[simp] theorem markSeeded_response : (markSeeded s).response = s.response := rfl
@[simp] theorem markSeeded_host : (markSeeded s).host = s.host := rfl

@[simp] theorem install_variant (x : Snapshot) : (install x s).variant = s.variant := rfl
@[simp] theorem install_words (x : Snapshot) : (install x s).words = x.words := rfl
@[simp] theorem install_hasCached (x : Snapshot) : (install x s).hasCached = x.hasCached := rfl
@[simp] theorem install_cachedValue (x : Snapshot) : (install x s).cachedValue = x.cachedValue := rfl
@[simp] theorem install_out (x : Snapshot) : (install x s).out = s.out := rfl
@[simp] theorem install_valid (x : Snapshot) : (install x s).valid = s.valid := rfl
@[simp] theorem install_wasReset (x : Snapshot) : (install x s).wasReset = s.wasReset := rfl
@[simp] theorem install_response (x : Snapshot) : (install x s).response = s.response := rfl
@[simp] theorem install_host (x : Snapshot) : (install x s).host = s.host := rfl

@[simp] theorem resetRegisters_variant : (resetRegisters s).variant = s.variant := rfl
@[simp] theorem resetRegisters_words : (resetRegisters s).words = zeroWords := rfl
@[simp] theorem resetRegisters_hasCached : (resetRegisters s).hasCached = false := rfl
@[simp] theorem resetRegisters_cachedValue : (resetRegisters s).cachedValue = 0 := rfl
@[simp] theorem resetRegisters_out : (resetRegisters s).out = 0 := rfl
@[simp] theorem resetRegisters_valid : (resetRegisters s).valid = false := rfl
@[simp] theorem resetRegisters_wasReset : (resetRegisters s).wasReset = true := rfl
@[simp] theorem resetRegisters_response : (resetRegisters s).response = none := rfl
@[simp] theorem resetRegisters_host : (resetRegisters s).host = s.host := rfl

@[simp] theorem losePower_variant : (losePower s).variant = s.variant := rfl
@[simp] theorem losePower_words : (losePower s).words = s.words := rfl
@[simp] theorem losePower_hasCached : (losePower s).hasCached = s.hasCached := rfl
@[simp] theorem losePower_cachedValue : (losePower s).cachedValue = s.cachedValue := rfl
@[simp] theorem losePower_out : (losePower s).out = s.out := rfl
@[simp] theorem losePower_valid : (losePower s).valid = s.valid := rfl
@[simp] theorem losePower_wasReset : (losePower s).wasReset = false := rfl
@[simp] theorem losePower_response : (losePower s).response = none := rfl
@[simp] theorem losePower_host : (losePower s).host = s.host := rfl

@[simp] theorem holdIdle_variant : (holdIdle s).variant = s.variant := rfl
@[simp] theorem holdIdle_words : (holdIdle s).words = s.words := rfl
@[simp] theorem holdIdle_hasCached : (holdIdle s).hasCached = s.hasCached := rfl
@[simp] theorem holdIdle_cachedValue : (holdIdle s).cachedValue = s.cachedValue := rfl
@[simp] theorem holdIdle_out : (holdIdle s).out = s.out := rfl
@[simp] theorem holdIdle_valid : (holdIdle s).valid = s.valid := rfl
@[simp] theorem holdIdle_wasReset : (holdIdle s).wasReset = s.wasReset := rfl
@[simp] theorem holdIdle_response : (holdIdle s).response = none := rfl
@[simp] theorem holdIdle_host : (holdIdle s).host = s.host := rfl

@[simp] theorem withHost_variant (h : List HostEvent) : (withHost h s).variant = s.variant := rfl
@[simp] theorem withHost_words (h : List HostEvent) : (withHost h s).words = s.words := rfl
@[simp] theorem withHost_hasCached (h : List HostEvent) : (withHost h s).hasCached = s.hasCached := rfl
@[simp] theorem withHost_cachedValue (h : List HostEvent) : (withHost h s).cachedValue = s.cachedValue := rfl
@[simp] theorem withHost_out (h : List HostEvent) : (withHost h s).out = s.out := rfl
@[simp] theorem withHost_valid (h : List HostEvent) : (withHost h s).valid = s.valid := rfl
@[simp] theorem withHost_wasReset (h : List HostEvent) : (withHost h s).wasReset = s.wasReset := rfl
@[simp] theorem withHost_response (h : List HostEvent) : (withHost h s).response = s.response := rfl
@[simp] theorem withHost_host (h : List HostEvent) : (withHost h s).host = h := rfl

@[simp] theorem resetOf_variant (v : Variant) : (State.resetOf v).variant = v := rfl
@[simp] theorem resetOf_words (v : Variant) : (State.resetOf v).words = zeroWords := rfl
@[simp] theorem resetOf_hasCached (v : Variant) : (State.resetOf v).hasCached = false := rfl
@[simp] theorem resetOf_cachedValue (v : Variant) : (State.resetOf v).cachedValue = 0 := rfl
@[simp] theorem resetOf_out (v : Variant) : (State.resetOf v).out = 0 := rfl
@[simp] theorem resetOf_valid (v : Variant) : (State.resetOf v).valid = false := rfl
@[simp] theorem resetOf_wasReset (v : Variant) : (State.resetOf v).wasReset = true := rfl
@[simp] theorem resetOf_response (v : Variant) : (State.resetOf v).response = none := rfl
@[simp] theorem resetOf_host (v : Variant) : (State.resetOf v).host = [] := rfl

@[simp] theorem snapshotOf_words : (snapshotOf s).words = s.words := rfl
@[simp] theorem snapshotOf_hasCached : (snapshotOf s).hasCached = s.hasCached := rfl
@[simp] theorem snapshotOf_cachedValue : (snapshotOf s).cachedValue = s.cachedValue := rfl

end Sys2Proof.Machine
end

