-- ==== Sys2Proof/Laws/Command.lean ====
section
/-! SUPPORT. Everything an instruction, a command and a step can do, said once: the lemmas that proofs cite instead of
unfolding the meanings. -/

namespace Sys2Proof.Machine

@[simp] theorem requireSeeded_seeded {s : State} (f : State → State) (h : s.valid = true) :
    requireSeeded s f = .next (f s) := by simp [requireSeeded, h]

@[simp] theorem requireSeeded_unseeded {s : State} (f : State → State) (h : s.valid = false) :
    requireSeeded s f = .next (raise .errUnseeded s) := by simp [requireSeeded, h]

/-- What SEED leaves. -/
theorem execSeed_eq (w0 w1 w2 : Word) (s : State) : execSeed w0 w1 w2 s =
    .next (respond .ok 0 (markSeeded (clearBuffer (setWords (seededWords s.variant w0 w1 w2) s)))) := rfl

/-- What SETSTATE leaves. -/
theorem execSetstate_eq (x : Snapshot) (s : State) :
    execSetstate x s = .next (respond .ok 0 (markSeeded (install x s))) := rfl

/-- Every instruction answers a next state: no data value can make a command fail (60_exceptions.md). -/
theorem exec_next (i : Instr) (s : State) : ∃ t, exec i s = .next t := by
  cases i <;> exact ⟨_, rfl⟩

/-- Every command answers a next state. -/
theorem performCommand_next (c : Command) (s : State) : ∃ t, performCommand c s = .next t := by
  unfold performCommand
  split
  · exact exec_next _ s
  · exact ⟨_, rfl⟩

/-- Everything one command can do: an error that writes nothing, or one of the six performed. -/
theorem performCommand_cases {c : Command} {s t : State} (h : performCommand c s = .next t) :
    ((c.cmd.toNat = 0 ∨ 7 ≤ c.cmd.toNat) ∧ t = raise .errReserved s) ∨
    ((c.cmd = 0x02#8 ∨ c.cmd = 0x03#8 ∨ c.cmd = 0x04#8 ∨ c.cmd = 0x05#8) ∧ s.valid = false ∧
      t = raise .errUnseeded s) ∨
    (c.cmd = 0x01#8 ∧ t = respond .ok 0 (markSeeded (clearBuffer
      (setWords (seededWords s.variant (lane c.seedIn 0) (lane c.seedIn 1) (lane c.seedIn 2)) s)))) ∨
    ((c.cmd = 0x02#8 ∨ c.cmd = 0x04#8) ∧ s.valid = true ∧ t = draw64 s) ∨
    (c.cmd = 0x03#8 ∧ s.valid = true ∧ s.hasCached = true ∧ t = draw32Hit s) ∨
    (c.cmd = 0x03#8 ∧ s.valid = true ∧ s.hasCached = false ∧ t = draw32Miss s) ∨
    (c.cmd = 0x05#8 ∧ s.valid = true ∧ t = respond .ok (snapshotOf s).pack s) ∨
    (c.cmd = 0x06#8 ∧ t = respond .ok 0 (markSeeded (install (Snapshot.unpack c.stateIn) s))) := by
  cases hd : decodeByte c.cmd with
  | error e =>
    have hb := (decodeByte_error_iff c.cmd).1 ⟨e, hd⟩
    simp only [performCommand, decode, hd, Host.Outcome.next.injEq] at h
    exact .inl ⟨hb, h.symm⟩
  | ok op =>
    have hb := (decodeByte_eq_ok_iff c.cmd op).1 hd
    simp only [performCommand, decode, hd] at h
    have ht := h.symm
    cases op <;> cases hv : s.valid <;> cases hc : s.hasCached <;>
      simp only [operandsOf, exec, execSeed_eq, execSetstate_eq, execNext64, execNextraw, execNext32, execGetstate,
        requireSeeded, hv, hc, if_true, Bool.false_eq_true, if_false,
        Host.Outcome.next.injEq] at ht <;>
      simp [hb, opcodeByte, ht]

/-- Everything one step can do. -/
theorem step_cases {s t : State} (h : step s = .next t) :
    (s.host = [] ∧ t = holdIdle s) ∨
    (∃ rest, s.host = .reset :: rest ∧ t = resetRegisters (withHost rest s)) ∨
    (∃ rest, s.host = .powerCycle :: rest ∧ t = losePower (withHost rest s)) ∨
    (∃ c rest, s.host = .command c :: rest ∧ s.wasReset = true ∧ performCommand c (withHost rest s) = .next t) := by
  unfold step performNext at h
  split at h
  · exact .inl ⟨‹_›, by simpa using h.symm⟩
  · rename_i e rest he
    cases e with
    | command c =>
      by_cases hw : s.wasReset = true
      · simp only [performEvent, withHost_wasReset, hw, if_true] at h
        exact .inr (.inr (.inr ⟨c, rest, he, hw, h⟩))
      · simp [performEvent, hw] at h
    | reset => exact .inr (.inl ⟨rest, he, by simpa [performEvent] using h.symm⟩)
    | powerCycle => exact .inr (.inr (.inl ⟨rest, he, by simpa [performEvent] using h.symm⟩))
    | unarbitrated a b => simp [performEvent] at h
    | outsideCore op => simp [performEvent] at h

end Sys2Proof.Machine
end

