-- ==== Sys2Proof/Laws/Transition.lean ====
section
/-! SUPPORT. The algebra of `advance`, and the cancellation of two rotations. -/

namespace Sys2Proof.Machine

@[simp] theorem advance_zero (v : Variant) (w : Words) : advance v 0 w = w := rfl

theorem advance_succ (v : Variant) (n : Nat) (w : Words) :
    advance v (n + 1) w = advance v n (transition v w).1 := rfl

/-- `m + n` transitions are `m` transitions and then `n`. -/
theorem advance_add (v : Variant) (m n : Nat) (w : Words) :
    advance v (m + n) w = advance v n (advance v m w) := by
  induction m generalizing w with
  | zero => simp
  | succ m ih => rw [Nat.succ_add, advance_succ, ih, advance_succ]

/-- The last of `n + 1` transitions. -/
theorem advance_last (v : Variant) (n : Nat) (w : Words) :
    advance v (n + 1) w = (transition v (advance v n w)).1 := by
  rw [advance_add]; rfl

/-- Rotating by `r` and then by the rest of the word is no rotation. -/
theorem rotl64_cancel (v : Word) (r : Nat) (h1 : 1 ≤ r) (h2 : r ≤ 63) : rotl64 (rotl64 v r) (64 - r) = v := by
  ext i hi
  simp only [rotl64, BitVec.getElem_or, BitVec.getElem_shiftLeft, BitVec.getLsbD_or, BitVec.getLsbD_shiftLeft,
    BitVec.getLsbD_ushiftRight, BitVec.getElem_ushiftRight]
  by_cases h : i < 64 - r
  · have e1 : r + i - r = i := by omega
    have e2 : ¬ (64 - (64 - r) + i < r) := by omega
    have e3 : 64 - (64 - r) + i < 64 := by omega
    have e4 : 64 - (64 - r) + i - r = i := by omega
    have e5 : v.getLsbD (64 - r + (64 - (64 - r) + i)) = false := by
      apply BitVec.getLsbD_of_ge; omega
    simp [h, e2, e3, e4, e5, BitVec.getLsbD_eq_getElem hi]
  · have e1 : i - (64 - r) < r := by omega
    have e2 : 64 - r + (i - (64 - r)) = i := by omega
    have e3 : ¬ (64 - (64 - r) + i < 64) := by omega
    have e4 : v.getLsbD (64 - r + (64 - (64 - r) + i)) = false := by
      apply BitVec.getLsbD_of_ge; omega
    simp [h, e1, e2, e3, e4, BitVec.getLsbD_eq_getElem hi]

end Sys2Proof.Machine
end

