-- ==== Sys2Proof/Laws/Operands.lean ====
section
/-! SUPPORT. The halves of a draw as numbers, the state words SEED leaves per variant, and the bytes of a number. -/

namespace Sys2Proof.Machine

theorem lowHalf_toNat (w : Word) : (lowHalf w).toNat = w.toNat % 2 ^ 32 := by
  simp [lowHalf, BitVec.extractLsb'_toNat]

theorem highHalf_toNat (w : Word) : (highHalf w).toNat = w.toNat / 2 ^ 32 := by
  have := w.isLt
  simp [highHalf, BitVec.extractLsb'_toNat, Nat.shiftRight_eq_div_pow]
  omega

theorem zext64_toNat (r : Half) : (zext64 r).toNat = r.toNat := by
  have := r.isLt
  simp [zext64, BitVec.toNat_setWidth]
  omega

theorem seededWords_gjrand (w0 w1 w2 : Word) :
    seededWords .gjrand w0 w1 w2 = advance .gjrand 14 ⟨w0, w1, 2000001, 0⟩ := rfl

theorem seededWords_jsf64 (w0 w1 w2 : Word) :
    seededWords .jsf64 w0 w1 w2 = advance .jsf64 20 ⟨0xF1EA5EED, w0, w1, w2⟩ := rfl

@[simp] theorem bytesOf_length (n x : Nat) : (bytesOf n x).length = n := by
  induction n generalizing x with
  | zero => rfl
  | succ n ih => simp [bytesOf, ih]

/-- Taking `n` bytes of a number and putting them together again keeps it modulo 256^n. -/
theorem numberOf_bytesOf (n x : Nat) : numberOf (bytesOf n x) = x % 256 ^ n := by
  induction n generalizing x with
  | zero => simp [bytesOf, numberOf, Nat.mod_one]
  | succ n ih =>
    rw [Nat.pow_succ]; simp only [bytesOf, numberOf, ih, BitVec.toNat_ofNat]
    rw [Nat.mul_comm (256 ^ n), Nat.mod_mul]

/-- Byte `k` of a number. -/
theorem bytesOf_getD (n x k : Nat) (h : k < n) : (bytesOf n x).getD k 0 = BitVec.ofNat 8 (x / 256 ^ k) := by
  induction n generalizing x k with
  | zero => omega
  | succ n ih =>
    cases k with
    | zero => simp [bytesOf]
    | succ k =>
      simp only [bytesOf, List.getD_cons_succ]
      rw [ih _ _ (by omega), Nat.div_div_eq_div_mul, Nat.pow_succ, Nat.mul_comm]

theorem reorder_getElem? (order : ByteOrder) (bs : List Byte) (k : Fin 40) :
    (reorder order bs)[k.val]? = some (bs.getD (order k).val 0) := by
  simp [reorder]

end Sys2Proof.Machine
end

