-- ==== Sys2Proof/Laws/PerInstr.lean ====
section
/-! SUPPORT. Statements made of every instruction as syntax, one lemma per constructor. -/

namespace Sys2Proof.Laws.OpcodeByte

/-- The instruction's encoding carries the byte of its opcode-map row, and that byte decodes to the row's opcode
(30_encoding.md R63). -/
def Statement (i : Instr) : Prop :=
  (encode i).cmd = opcodeByte i.opcode ∧ decodeByte (encode i).cmd = .ok i.opcode

theorem seed (w0 w1 w2 : Word) : Statement (.seed w0 w1 w2) := ⟨rfl, decodeByte_opcodeByte .seed⟩
theorem next64 : Statement .next64 := ⟨rfl, decodeByte_opcodeByte .next64⟩
theorem next32 : Statement .next32 := ⟨rfl, decodeByte_opcodeByte .next32⟩
theorem nextraw : Statement .nextraw := ⟨rfl, decodeByte_opcodeByte .nextraw⟩
theorem getstate : Statement .getstate := ⟨rfl, decodeByte_opcodeByte .getstate⟩
theorem setstate (x : Snapshot) : Statement (.setstate x) := ⟨rfl, decodeByte_opcodeByte .setstate⟩

end Sys2Proof.Laws.OpcodeByte
end

