-- ==== Sys2Proof/Laws/Sequence.lean ====
section
/-! SUPPORT. What one command of a sequence leaves, byte by byte, and one step of a run. -/

namespace Sys2Proof.Machine

/-- A port value whose byte is an opcode's decodes to that opcode with its operands. -/
theorem decode_of_cmd {c : Command} (op : Opcode) (h : c.cmd = opcodeByte op) : decode c = .ok (operandsOf op c) := by
  simp [decode, (decodeByte_eq_ok_iff _ _).2 h]

theorem decode_error_iff (c : Command) : (∃ e, decode c = .error e) ↔ c.cmd.toNat = 0 ∨ 7 ≤ c.cmd.toNat := by
  rw [← decodeByte_error_iff]
  cases h : decodeByte c.cmd <;> simp [decode, h]

theorem after_eq {c : Command} {s t : State} (h : performCommand c s = .next t) : after c s = t := by
  simp [after, h]

/-- Every command answers the state `after` names. -/
theorem performCommand_after (c : Command) (s : State) : performCommand c s = .next (after c s) := by
  obtain ⟨t, h⟩ := performCommand_next c s
  rw [after_eq h, h]

theorem after_seed {c : Command} (s : State) (h : c.cmd = 0x01#8) : after c s = respond .ok 0 (markSeeded (clearBuffer
    (setWords (seededWords s.variant (lane c.seedIn 0) (lane c.seedIn 1) (lane c.seedIn 2)) s))) :=
  after_eq (by rw [performCommand, decode_of_cmd .seed h]; rfl)

theorem after_draw64 {c : Command} {s : State} (hv : s.valid = true) (h : c.cmd = 0x02#8 ∨ c.cmd = 0x04#8) :
    after c s = draw64 s := by
  apply after_eq
  rcases h with h | h
  · rw [performCommand, decode_of_cmd .next64 h]
    simp [operandsOf, exec, execNext64, hv]
  · rw [performCommand, decode_of_cmd .nextraw h]
    simp [operandsOf, exec, execNextraw, hv]

theorem after_next32 {c : Command} {s : State} (hv : s.valid = true) (h : c.cmd = 0x03#8) :
    after c s = if s.hasCached then draw32Hit s else draw32Miss s := by
  apply after_eq
  rw [performCommand, decode_of_cmd .next32 h]
  simp [operandsOf, exec, execNext32, hv]

theorem after_getstate {c : Command} {s : State} (hv : s.valid = true) (h : c.cmd = 0x05#8) :
    after c s = respond .ok (snapshotOf s).pack s := by
  apply after_eq
  rw [performCommand, decode_of_cmd .getstate h]
  simp [operandsOf, exec, execGetstate, hv]

theorem after_setstate {c : Command} (s : State) (h : c.cmd = 0x06#8) :
    after c s = respond .ok 0 (markSeeded (install (Snapshot.unpack c.stateIn) s)) :=
  after_eq (by rw [performCommand, decode_of_cmd .setstate h]; rfl)

theorem after_reserved {c : Command} (s : State) (h : c.cmd.toNat = 0 ∨ 7 ≤ c.cmd.toNat) :
    after c s = raise .errReserved s := by
  obtain ⟨e, he⟩ := (decode_error_iff c).2 h
  exact after_eq (by simp only [performCommand, he])

theorem after_unseeded {c : Command} {s : State} (hv : s.valid = false)
    (h : c.cmd = 0x02#8 ∨ c.cmd = 0x03#8 ∨ c.cmd = 0x04#8 ∨ c.cmd = 0x05#8) : after c s = raise .errUnseeded s := by
  apply after_eq
  rcases h with h | h | h | h
  · rw [performCommand, decode_of_cmd .next64 h]; simp [operandsOf, exec, execNext64, hv]
  · rw [performCommand, decode_of_cmd .next32 h]; simp [operandsOf, exec, execNext32, hv]
  · rw [performCommand, decode_of_cmd .nextraw h]; simp [operandsOf, exec, execNextraw, hv]
  · rw [performCommand, decode_of_cmd .getstate h]; simp [operandsOf, exec, execGetstate, hv]

/-- A command does not look at the host's further events. -/
theorem after_withHost (c : Command) (s : State) (rest : List HostEvent) :
    after c (withHost rest s) = withHost rest (after c s) := by
  rcases performCommand_cases (performCommand_after c s) with
    ⟨h, e⟩ | ⟨h, hv, e⟩ | ⟨h, e⟩ | ⟨h, hv, e⟩ | ⟨h, hv, hc, e⟩ | ⟨h, hv, hc, e⟩ | ⟨h, hv, e⟩ | ⟨h, e⟩ <;> rw [e]
  · rw [after_reserved _ h]; rfl
  · rw [after_unseeded (s := withHost rest s) hv h]; rfl
  · rw [after_seed _ h]; rfl
  · rw [after_draw64 (s := withHost rest s) hv h]; rfl
  · rw [after_next32 (s := withHost rest s) hv h, withHost_hasCached, hc]; rfl
  · rw [after_next32 (s := withHost rest s) hv h, withHost_hasCached, hc]; rfl
  · rw [after_getstate (s := withHost rest s) hv h]; rfl
  · rw [after_setstate _ h]; rfl

/-- A command on the host's list is performed by the next step. -/
theorem step_command {s : State} {c : Command} {rest : List HostEvent} (hw : s.wasReset = true)
    (hh : s.host = .command c :: rest) : step s = performCommand c (withHost rest s) := by
  simp [step, performNext, hh, performEvent, hw]

/-- One step of a run that goes on. -/
theorem run_succ {n : Nat} {s t : State} (h : step s = .next t) :
    Host.Core.run core (n + 1) s = Host.Core.run core n t := by
  have : core.step s = .next t := h
  simp only [Host.Core.run, this]

end Sys2Proof.Machine
end

