-- ==== Sys2Proof/Laws/Ports.lean ====
section
/-! SUPPORT. Everything a clock edge can do, said once, and runs of edges put together. -/

namespace Sys2Proof.Machine

/-- Everything an edge that answers a next block can do. -/
theorem edge_cases {lat : Latency} {b b' : Block} {i : PortIn} (h : edge lat b i = .next b') :
    (i.rst = true ∧ b' = ⟨resetRegisters b.core, .idle⟩) ∨
    (i.rst = false ∧ b.core.wasReset = false ∧ i.cmdValid = false ∧ b' = b) ∨
    (i.rst = false ∧ b.core.wasReset = true ∧ b.phase = .idle ∧ i.cmdValid = false ∧ b' = b) ∨
    (i.rst = false ∧ b.core.wasReset = true ∧ b.phase = .idle ∧ i.cmdValid = true ∧
      b' = ⟨b.core, .busy i.command (latencyOf lat i.command b.core.valid)⟩) ∨
    (∃ c n, i.rst = false ∧ b.core.wasReset = true ∧ b.phase = .busy c n ∧ 1 < n ∧ b' = ⟨b.core, .busy c (n - 1)⟩) ∨
    (∃ c n, i.rst = false ∧ b.core.wasReset = true ∧ b.phase = .busy c n ∧ n ≤ 1 ∧
      b' = ⟨after c b.core, .responding⟩) ∨
    (i.rst = false ∧ b.core.wasReset = true ∧ b.phase = .responding ∧ b' = ⟨holdIdle b.core, .idle⟩) := by
  have ht := h.symm
  cases hr : i.rst <;> cases hw : b.core.wasReset <;> cases hv : i.cmdValid <;> cases hp : b.phase <;>
    simp only [edge, hr, hw, hv, hp, if_true, if_false, Bool.false_eq_true, Bool.not_true, Bool.not_false,
      Host.Outcome.next.injEq, reduceCtorEq] at ht <;> try simp [ht]
  all_goals
    rename_i c n
    by_cases hn : n ≤ 1
    · simp only [hn, if_true, finish, performCommand_after, Host.Outcome.next.injEq] at ht
      simp [ht, hn]
    · simp only [hn, if_false, Host.Outcome.next.injEq] at ht
      simp [ht, hn, Nat.lt_of_not_le hn]

/-- Two runs of edges, one after the other. -/
theorem edges_append {lat : Latency} {b b' : Block} (is js : List PortIn) (h : edges lat b is = .next b') :
    edges lat b (is ++ js) = edges lat b' js := by
  induction is generalizing b with
  | nil => cases h; rfl
  | cons i is ih =>
    simp only [edges] at h
    simp only [List.cons_append, edges]
    cases he : edge lat b i with
    | next b1 => rw [he] at h; exact ih h
    | fault f => rw [he] at h; cases h
    | refused r => rw [he] at h; cases h

end Sys2Proof.Machine
end

