-- ==== Sys2Proof/Tests/Slice0.lean ====
section
/-! SUPPORT. The model's own tests. Expected values are those of 95_test_vectors.md (named in each comment) or are
worked out by hand from the rule named. The second part gives, for every statement of
Certificates/Slice0/Obligations.lean that has hypotheses, concrete data that meet all of them together. -/

namespace Sys2Proof.Tests
open Sys2Proof.Machine

/-- A seeded instance with the given words and buffer. -/
def seededWith (v : Variant) (w : Words) (hasCached : Bool) (cachedValue : Half) : State :=
  { State.resetOf v with words := w, hasCached := hasCached, cachedValue := cachedValue, valid := true }

/-- The state an outcome answers. -/
def nextOf {σ φ ρ : Type} : Host.Outcome σ φ ρ → Option σ
  | .next t => some t
  | .fault _ => none
  | .refused _ => none

/-- The fault an outcome answers. -/
def faultOf {σ φ ρ : Type} : Host.Outcome σ φ ρ → Option φ
  | .fault f => some f
  | .next _ => none
  | .refused _ => none

/-- The refusal an outcome answers. -/
def refusalOf {σ φ ρ : Type} : Host.Outcome σ φ ρ → Option ρ
  | .refused r => some r
  | .next _ => none
  | .fault _ => none

/-- The seed bus with words 1, 2 and all ones in lanes 0, 1 and 2. -/
def seedBus12f : SeedBus := 0xFFFFFFFFFFFFFFFF00000000000000020000000000000001

/-- The words of the gjrand worked example, `(1, 2, 2000001, 0)` (W1, TV-G1). -/
def wordsG : Words := ⟨1, 2, 2000001, 0⟩

/-- The words of the jsf64 worked example, `(0xF1EA5EED, 1, 2, 3)` (TV-J1). -/
def wordsJ : Words := ⟨0xF1EA5EED, 1, 2, 3⟩

def ones : Word := 0xFFFFFFFFFFFFFFFF

/-! ## Decoding (TV-E1, 30_encoding.md R63, R68, R69) -/

theorem test_decode_seed : decode ⟨0b00000001, seedBus12f, 0⟩ = .ok (.seed 1 2 ones) := by decide
theorem test_decode_next64 : decode ⟨0b00000010, seedBus12f, 5⟩ = .ok .next64 := by decide
theorem test_decode_next32 : decode (rawCommand 0b00000011) = .ok .next32 := by decide
theorem test_decode_nextraw : decode (rawCommand 0b00000100) = .ok .nextraw := by decide
theorem test_decode_getstate : decode (rawCommand 0b00000101) = .ok .getstate := by decide

/-- TV-R3: LANE[4] = `0xFFFFFFFE00000005` gives HAS_CACHED = 0 and CACHED_VALUE = 5. -/
theorem test_decode_setstate :
    decode ⟨0b00000110, 0, packLanes 1 2 3 4 0xFFFFFFFE00000005⟩ = .ok (.setstate ⟨⟨1, 2, 3, 4⟩, false, 5⟩) := by
  decide

theorem test_decode_reserved_bits : decode (rawCommand 0b00001010) = .error .reservedBits := by decide
theorem test_decode_reserved_zero : decode (rawCommand 0b00000000) = .error .reservedZero := by decide
theorem test_decode_reserved_double : decode (rawCommand 0b00000111) = .error .reservedDouble := by decide
theorem test_decode_all_ones : decode (rawCommand 0b11111111) = .error .reservedBits := by decide

/-- R61: a command has one length. -/
theorem test_decode_other_length : decodeTableWord 16 0x0002 = none ∧ decodeTableWord 8 0x102 = none := by decide

/-- Program R2's `state_in` lanes. -/
theorem test_encode_setstate :
    encode (.setstate ⟨wordsG, true, 0xDEADBEEF⟩) = ⟨0x06, 0, packLanes 1 2 0x1E8481 0 0x00000001DEADBEEF⟩ := by decide

/-! ## Well-formedness: an ill-formed term for each check -/

theorem test_wf_instr : (Instr.seed ones ones ones).wf = true := by decide
theorem test_illformed_seed : (AsmLine.seed 0 0 (2 ^ 64)).wf = false := by decide
theorem test_illformed_seed2 : (AsmLine.seed2 (2 ^ 64) 0).wf = false := by decide
theorem test_illformed_setstate_word : (AsmLine.setstate 0 0 (2 ^ 64) 0 0 0).wf = false := by decide
theorem test_illformed_setstate_flag : (AsmLine.setstate 0 0 0 0 2 0).wf = false := by decide
theorem test_illformed_setstate_value : (AsmLine.setstate 0 0 0 0 1 (2 ^ 32)).wf = false := by decide
theorem test_illformed_setstate4 : (AsmLine.setstate4 (2 ^ 64) 0 0 0).wf = false := by decide
theorem test_illformed_raw_command : (AsmLine.raw 0x06).wf = false := by decide
theorem test_illformed_raw_wide : (AsmLine.raw 256).wf = false := by decide
theorem test_wellformed_edges :
    (AsmLine.setstate (2 ^ 64 - 1) 0 0 0 1 (2 ^ 32 - 1)).wf = true ∧ (AsmLine.raw 0xFF).wf = true := by decide

/-! ## The command language (30_encoding.md R72, R73) -/

theorem test_read_seed : readLine "SEED 1, 2  ; gjrand".toList = some (.seed2 1 2) := by decide
theorem test_read_raw : readLine "  .cmd 0x0A".toList = some (.raw 10) := by decide
theorem test_read_listing : readLine "next64 -> 0x1BBAD0FE0243C889".toList = some .next64 := by decide
theorem test_read_setstate :
    readLine "SETSTATE 1, 2, 2000001, 0, 1, 0xDEADBEEF".toList = some (.setstate 1 2 2000001 0 1 0xDEADBEEF) := by
  decide

/-- Hand calculation from R72: LANE[4] = (1 << 32) | 0xDEADBEEF. -/
theorem test_assemble_setstate :
    assemble (.setstate 1 2 2000001 0 1 0xDEADBEEF) = some ⟨0x06, 0, packLanes 1 2 0x1E8481 0 0x1DEADBEEF⟩ := by decide

/-! ## Rotation and transitions -/

/-- The rotation table of 95_test_vectors.md. -/
theorem test_rotl64 :
    rotl64 0x8000000000000001 32 = 0x0000000180000000 ∧ rotl64 0x8000000000000000 23 = 0x0000000000400000 ∧
    rotl64 1 19 = 0x80000 ∧ rotl64 1 7 = 0x80 ∧ rotl64 2 13 = 0x4000 ∧ rotl64 3 37 = 0x6000000000 ∧
    rotl64 ones 37 = ones := by decide

/-- TV-G1. -/
theorem test_stepGjrand :
    stepGjrand wordsG =
      (⟨0x00000001011E8483, 0x0008000055AA96A5, 0x00000001021E8483, 0x0000000055AA96A5⟩, 0x00000001011E8483) := by
  decide

/-- TV-G2, the wrap-around trace. -/
theorem test_stepGjrand_wraps :
    stepGjrand ⟨ones, ones, ones, ones⟩ = (⟨0x7FFFFD, 0x55C296A4, 0xFFFFFD, 0x55AA96A4⟩, 0x7FFFFD) := by decide

/-- TV-J1, and the ordering of TV-J5: the last word uses the new s0. -/
theorem test_stepJsf64 :
    stepJsf64 wordsJ = (⟨0x4001, 0x6000000002, 0xF1EA5E70, 0xF1EA9E6E⟩, 0xF1EA9E6E) := by decide

/-- TV-J2, the wrap-around trace. -/
theorem test_stepJsf64_wraps :
    stepJsf64 ⟨ones, ones, ones, ones⟩ = (⟨0, 0xFFFFFFFFFFFFFFFE, ones, 0⟩, 0) := by decide

/-- TV-G5. -/
theorem test_invGjrand : invGjrand ⟨0x7FFFFD, 0x55C296A4, 0xFFFFFD, 0x55AA96A4⟩ = ⟨ones, ones, ones, ones⟩ := by decide

/-- TV-J6. -/
theorem test_invJsf64 : invJsf64 ⟨0x4001, 0x6000000002, 0xF1EA5E70, 0xF1EA9E6E⟩ = wordsJ := by decide

/-! ## One step of each instruction -/

/-- TV-S1, row k = 14. -/
theorem test_seed_gjrand :
    (nextOf (exec (.seed 1 2 ones) (State.resetOf .gjrand))).map (·.words) =
      some ⟨0x534B5074D83F8500, 0xEFCBC7D19CC4B792, 0x3C39162FBB2BA19F, 0x00000004AF543D06⟩ := by decide

/-- TV-S2, row k = 20. -/
theorem test_seed_jsf64 :
    (nextOf (exec (.seed 1 2 3) (State.resetOf .jsf64))).map (·.words) =
      some ⟨0x4920051C5D620D16, 0x26F5DCD5AC4801BA, 0x99D8393B9736224A, 0xB88601F5B355A982⟩ := by decide

/-- Program E's last line, from the words of TV-S1 row 14: draw 1. -/
theorem test_next64_gjrand :
    (nextOf (exec .next64 (seededWith .gjrand
      ⟨0x534B5074D83F8500, 0xEFCBC7D19CC4B792, 0x3C39162FBB2BA19F, 0x00000004AF543D06⟩ true 7))).map
      (fun t => (t.out, t.words.s3, t.hasCached, t.cachedValue)) =
      some (0x1BBAD0FE0243C889, 0x0000000504FED3AB, true, 7) := by decide

/-- TV-E2: a draw before seeding. -/
theorem test_next64_unseeded :
    nextOf (exec .next64 (State.resetOf .jsf64)) =
      some { State.resetOf .jsf64 with response := some ⟨.errUnseeded, 0, 0⟩ } := by decide

/-- Program J line 6's words (TV-S2 k = 2), by NEXTRAW. -/
theorem test_nextraw_jsf64 :
    (nextOf (exec .nextraw (seededWith .jsf64 ⟨0x4001, 0x6000000002, 0xF1EA5E70, 0xF1EA9E6E⟩ false 0))).map
      (fun t => (t.words, t.out)) =
      some (⟨0x00001E5D4BCE0002, 0x3D53CDC0F1EA5E8E, 0xFFFFD000F1EADD6F, 0xFFFFEE5D4BCE3F03⟩, 0xFFFFEE5D4BCE3F03) := by
  decide

/-- Program R2 line 2: a hit, with no transition. -/
theorem test_next32_hit :
    nextOf (exec .next32 (seededWith .gjrand wordsG true 0xDEADBEEF)) =
      some { seededWith .gjrand wordsG false 0xDEADBEEF with
        out := 0x00000000DEADBEEF, response := some ⟨.ok, 0x00000000DEADBEEF, 0⟩ } := by decide

/-- Program R2 line 3: a miss. -/
theorem test_next32_miss :
    (nextOf (exec .next32 (seededWith .gjrand wordsG false 0xDEADBEEF))).map
      (fun t => (t.out, t.hasCached, t.cachedValue, t.words.s0)) =
      some (0x00000000011E8483, true, 0x00000001, 0x00000001011E8483) := by decide

/-- Program R2 line 4's last lane. -/
theorem test_getstate :
    (nextOf (exec .getstate (seededWith .jsf64 ⟨1, 2, 3, 4⟩ true 1))).map (·.response) =
      some (some ⟨.ok, 0, packLanes 1 2 3 4 0x0000000100000001⟩) := by decide

/-- Program P3 line 1, on a block with an old OUT (R131: OUT unchanged). -/
theorem test_setstate :
    nextOf (exec (.setstate ⟨wordsG, true, 9⟩) { State.resetOf .gjrand with out := 5 }) =
      some { seededWith .gjrand wordsG true 9 with out := 5, response := some ⟨.ok, 5, 0⟩ } := by decide

/-! ## Steps -/

/-- Program E line 3: a reserved byte on a seeded block (R142). -/
theorem test_step_reserved_byte :
    nextOf (step { seededWith .gjrand wordsG true 9 with host := [.command (rawCommand 0x0A)] }) =
      some { seededWith .gjrand wordsG true 9 with response := some ⟨.errReserved, 0, 0⟩ } := by decide

/-- The machine runs the word the host places, from reset. -/
theorem test_step_fetch_word :
    (nextOf (step (State.reset.withFetchWord 8 2))).map (fun t => (t.response, t.valid, t.host)) =
      some (some ⟨.errUnseeded, 0, 0⟩, false, []) := by decide

/-- R3, R8: two ways to be built; the placed words differ in S[0] (R121). -/
theorem test_place_seed :
    placeSeed .gjrand 1 2 3 = wordsG ∧ placeSeed .jsf64 1 2 3 = wordsJ := by decide

/-- R43 with the bytes in bus order, lowest first, and the round trip of one snapshot. -/
theorem test_serialize :
    (serialize (Equiv.refl _) (packLanes 0x0102 0 0 0 0)).take 3 = [0x02, 0x01, 0x00] := by decide

/-- Two instances: a step of the second leaves the first (R33). -/
theorem test_instances :
    (stepInstance 1 [State.resetOf .gjrand, { State.resetOf .jsf64 with host := [.reset] }]).bind nextOf =
      some [State.resetOf .gjrand, State.resetOf .jsf64] := by decide

/-! ## Data that meet the hypotheses of the statements -/

/-- A command on a host's list, on a seeded block with a pending cached half. -/
def queued (v : Variant) (b : Byte) : State :=
  { seededWith v wordsG true 9 with host := [.command (rawCommand b), .reset] }

/-- The same command on a block that was never seeded. -/
def queuedUnseeded (b : Byte) : State :=
  { State.resetOf .jsf64 with host := [.command (rawCommand b)] }

/-- An instruction whose every operand bit is set, and a port value with spare bits set that decodes to it. -/
theorem witness_DecodeAndEncodeAgree :
    (Instr.setstate ⟨⟨ones, ones, ones, ones⟩, true, 0xFFFFFFFF⟩).wf = true ∧
    decode ⟨0x06, 3, packLanes ones ones ones ones ones⟩ =
      .ok (.setstate ⟨⟨ones, ones, ones, ones⟩, true, 0xFFFFFFFF⟩) ∧
    decode ⟨0x01, seedBus12f, 3⟩ = .ok (.seed 1 2 ones) ∧ (288 : Nat) < 289 := by decide

theorem witness_EveryByteDecodesToItsOpcodeMapRow :
    decode (rawCommand 0x00) = .error .reservedZero ∧ decode (rawCommand 0x07) = .error .reservedDouble ∧
    decode (rawCommand 0x08) = .error .reservedBits := by decide

/-- SEED with another `state_in`, SETSTATE with other spare bits, NEXT64 with both buses other. -/
theorem witness_UnusedBusCannotAffectACommand :
    ((⟨0x01, 5, 6⟩ : Command).seedIn = (⟨0x01, 5, 7⟩ : Command).seedIn) ∧
    (∀ k, k < 289 →
      (packLanes 1 2 3 4 0xFFFFFFFE00000005).getLsbD k = (packLanes 1 2 3 4 0x0000000000000005).getLsbD k) ∧
    (⟨0x02, 5, 6⟩ : Command).cmd = (⟨0x02, 7, 8⟩ : Command).cmd ∧
    (⟨0x01, 5, 6⟩ : Command).cmd = 0x01#8 ∧ (⟨0x06, 5, 6⟩ : Command).cmd = 0x06#8 := by decide +kernel

theorem witness_SeedBusLanesReachTheirVariant :
    (⟨0x01, seedBus12f, 0⟩ : Command).cmd = 0x01#8 ∧ (63 : Nat) < 64 ∧ (State.resetOf .gjrand).variant = .gjrand ∧
    (State.resetOf .jsf64).variant = .jsf64 ∧ (0x06#8 : Byte) ≠ 0x01#8 := by decide

theorem witness_AssembledLineDecodesToWhatItWrites :
    (AsmLine.setstate 1 2 3 4 1 (2 ^ 32 - 1)).wf = true ∧
    asmInstr (.setstate 1 2 3 4 1 (2 ^ 32 - 1)) = some (.setstate ⟨⟨1, 2, 3, 4⟩, true, 0xFFFFFFFF⟩) ∧
    (AsmLine.raw 0x07).wf = true ∧ asmInstr (.raw 0x07) = none ∧ (AsmLine.raw 0x01).wf = false := by decide

/-- Both ends of the amounts, and both ends of the word. -/
theorem witness_RotationIsCircular : 1 ≤ 1 ∧ 1 ≤ 63 ∧ 63 ≤ 63 ∧ (0 : Nat) < 64 ∧ (63 : Nat) < 64 := by decide

/-- The one sequence short enough to run: no transition at all. -/
theorem witness_GjrandFourthWordIsACounter :
    (advance .gjrand 0 wordsG).s3 = wordsG.s3 ∧ advance .gjrand 0 wordsG = wordsG := by decide

theorem witness_Jsf64ZeroStateAbsorbsAndIsNeverSeeded :
    (seededWith .jsf64 zeroWords true 0).words = ⟨0, 0, 0, 0⟩ ∧
    ((seededWith .jsf64 zeroWords true 0).hasCached = true → (seededWith .jsf64 zeroWords true 0).cachedValue = 0) ∧
    (∀ c ∈ [rawCommand 0x02, rawCommand 0x03, rawCommand 0x04], isDraw c = true) ∧
    (seededWith .jsf64 zeroWords true 0).variant = .jsf64 ∧ (seededWith .jsf64 zeroWords true 0).valid = true ∧
    (stepJsf64 ⟨0, 0, 0, 0⟩).1 = ⟨0, 0, 0, 0⟩ ∧
    (seededWith .jsf64 zeroWords true 9).words = ⟨0, 0, 0, 0⟩ ∧ (seededWith .jsf64 zeroWords true 9).hasCached = true ∧
    (∀ d ∈ [rawCommand 0x02, rawCommand 0x04], d.cmd = 0x02#8 ∨ d.cmd = 0x04#8) ∧
    (rawCommand 0x03).cmd = 0x03#8 := by decide

/-- For every statement about an instruction while VALID = 1 (64-bit draws, the hit, GETSTATE). -/
theorem witness_SixtyFourBitDrawsAdvanceOnce : (seededWith .gjrand wordsG true 9).valid = true := by decide

theorem witness_Next32HitReturnsTheCachedHalf :
    (seededWith .jsf64 wordsJ true 0).valid = true ∧ (seededWith .jsf64 wordsJ true 0).hasCached = true := by decide

theorem witness_Next32MissSplitsOneDraw :
    (seededWith .jsf64 wordsJ false 9).valid = true ∧ (seededWith .jsf64 wordsJ false 9).hasCached = false := by decide

theorem witness_GetstateShowsTheSnapshot :
    (seededWith .jsf64 wordsJ true 9).valid = true ∧ (289 : Nat) ≤ 289 ∧ (289 : Nat) ≤ 319 := by decide

theorem witness_SetstateInstallsTheSnapshot :
    (⟨0x06, 0, packLanes 1 2 3 4 0xFFFFFFFE00000005⟩ : Command).cmd = 0x06#8 := by decide

theorem witness_UnseededCommandReportsAndWritesNothing : (State.resetOf .gjrand).valid = false := by decide

theorem witness_StepPerformsTheDecodedInstruction :
    (queued .gjrand 0x03).wasReset = true ∧ (queued .gjrand 0x03).host = .command (rawCommand 0x03) :: [.reset] ∧
    decode (rawCommand 0x03) = .ok .next32 ∧ decodeTableWord 8 0x06 = some (.setstate ⟨⟨0, 0, 0, 0⟩, false, 0⟩) := by
  decide

/-- The three kinds of reserved byte, on a seeded and on an unseeded block. -/
theorem witness_ReservedByteChangesNothing :
    (queued .gjrand 0x08).wasReset = true ∧ (queuedUnseeded 0x00).wasReset = true ∧
    (0x08#8 : Byte).extractLsb' 3 5 ≠ 0#5 ∧ (0x00#8 : Byte).extractLsb' 0 3 = 0b000#3 ∧
    (0x07#8 : Byte).extractLsb' 0 3 = 0b111#3 := by decide

/-- Bytes at the edges of the ranges, each with the status that R140's table gives it. -/
theorem witness_StatusFollowsTheOrderOfTheChecks :
    (nextOf (step (queuedUnseeded 0x00))).bind (·.response) = some ⟨.errReserved, 0, 0⟩ ∧
    (nextOf (step (queuedUnseeded 0x07))).bind (·.response) = some ⟨.errReserved, 0, 0⟩ ∧
    (nextOf (step (queuedUnseeded 0x02))).bind (·.response) = some ⟨.errUnseeded, 0, 0⟩ ∧
    (nextOf (step (queuedUnseeded 0x05))).bind (·.response) = some ⟨.errUnseeded, 0, 0⟩ ∧
    (nextOf (step (queuedUnseeded 0x01))).bind (·.response) = some ⟨.ok, 0, 0⟩ ∧
    (nextOf (step (queuedUnseeded 0x06))).bind (·.response) = some ⟨.ok, 0, 0⟩ := by decide

theorem witness_ErrorsArePrecise :
    (queuedUnseeded 0x04).host = .command (rawCommand 0x04) :: [] ∧
    nextOf (step (queuedUnseeded 0x04)) = some { State.resetOf .jsf64 with response := some ⟨.errUnseeded, 0, 0⟩ } ∧
    (Response.mk .errUnseeded 0 0).status ≠ .ok := by decide

theorem witness_ResponseShowsOutAndSnapshot :
    (nextOf (performCommand (rawCommand 0x05) (seededWith .gjrand ⟨1, 2, 3, 4⟩ true 1))).bind (·.response) =
      some ⟨.ok, 0, packLanes 1 2 3 4 0x0000000100000001⟩ := by decide

/-- A command that changes every register of the statement: SETSTATE after reset. -/
theorem witness_RegistersChangeOnlyByTheirWriters :
    (nextOf (performCommand ⟨0x06, 0, packLanes 1 2 3 4 0x100000005⟩ (State.resetOf .gjrand))).map
      (fun t => (t.words, t.hasCached, t.cachedValue)) = some (⟨1, 2, 3, 4⟩, true, 5) := by decide

/-- A draw that writes OUT, and a command that does not. -/
theorem witness_OutHoldsTheLastSuccessfulDraw :
    (nextOf (performCommand (rawCommand 0x03) (seededWith .gjrand wordsG true 9))).map (·.out) = some 9 ∧
    (nextOf (performCommand (rawCommand 0x05) (seededWith .gjrand wordsG true 9))).map (·.out) = some 0 := by decide

/-- VALID falls by reset, rises by SETSTATE, and stays through an unseeded draw. -/
theorem witness_ValidRisesBySeedingAndFallsByReset :
    (nextOf (step { seededWith .gjrand wordsG true 9 with host := [.reset] })).map
      (fun t => (t.wasReset, t.valid)) = some (true, false) ∧
    (nextOf (step (queuedUnseeded 0x06))).map (fun t => (t.wasReset, t.valid)) = some (true, true) ∧
    (nextOf (step (queuedUnseeded 0x02))).map (·.valid) = some false ∧
    (nextOf (step (queuedUnseeded 0x05))).map (·.valid) = some false := by decide

theorem witness_CommandsTakeEffectInOrder : (State.resetOf .gjrand).wasReset = true := by decide

theorem witness_CachedHalfSurvivesSixtyFourBitDraws :
    (seededWith .gjrand wordsG true 9).valid = true ∧ (seededWith .gjrand wordsG true 9).hasCached = true ∧
    ∀ c ∈ [rawCommand 0x02, rawCommand 0x04], c.cmd = 0x02#8 ∨ c.cmd = 0x04#8 := by decide

/-- Two states that agree on VARIANT and the words and differ in what the statement does not mention. -/
theorem witness_TwoHalvesMakeTheWholeDraw :
    (seededWith .jsf64 wordsJ false 1).variant = (seededWith .jsf64 wordsJ false 2).variant ∧
    (seededWith .jsf64 wordsJ false 1).words = (seededWith .jsf64 wordsJ false 2).words ∧
    (seededWith .jsf64 wordsJ false 1).hasCached = false ∧ (seededWith .jsf64 wordsJ false 1).valid = true ∧
    (rawCommand 0x01).cmd = 0x01#8 := by decide

/-- Both values of the flag. -/
theorem witness_Next32RunMakesHalfAsManyTransitions :
    (seededWith .jsf64 wordsJ false 1).hasCached = false ∧ (seededWith .jsf64 wordsJ true 1).hasCached = true ∧
    (seededWith .jsf64 wordsJ true 1).valid = true := by decide

theorem witness_MixedDrawsKeepTheFirstHighHalf :
    (seededWith .gjrand wordsG false 9).valid = true ∧ (seededWith .gjrand wordsG false 9).hasCached = false := by decide

theorem witness_FirstDrawFollowsTheWarmUp :
    (seededWith .gjrand wordsG true 9).variant = .gjrand ∧ (seededWith .jsf64 wordsG true 9).variant = .jsf64 := by
  decide

/-- Two instances with nothing in common but VARIANT; a third word that differs, for gjrand. -/
theorem witness_SeedErasesThePast :
    (seededWith .gjrand wordsG true 9).variant = (State.resetOf .gjrand).variant ∧
    ((1 : Word) = 2 ∨ (seededWith .gjrand wordsG true 9).variant = .gjrand) := by decide

theorem witness_RestoredSnapshotReplaysTheStream :
    (seededWith .jsf64 wordsJ true 9).valid = true ∧
    (seededWith .jsf64 wordsJ true 9).variant = (State.resetOf .jsf64).variant := by decide

theorem witness_WordsDetermineTheSixtyFourBitStream :
    (seededWith .jsf64 wordsJ true 9).variant = (seededWith .jsf64 wordsJ false 3).variant ∧
    (seededWith .jsf64 wordsJ true 9).words = (seededWith .jsf64 wordsJ false 3).words ∧
    (seededWith .jsf64 wordsJ true 9).valid = true ∧ (seededWith .jsf64 wordsJ false 3).valid = true ∧
    ∀ c ∈ [rawCommand 0x04, rawCommand 0x02], c.cmd = 0x02#8 ∨ c.cmd = 0x04#8 := by decide

theorem witness_SeedAndSetstateAreIdempotent :
    (rawCommand 0x01).cmd = 0x01#8 ∧ (rawCommand 0x06).cmd = 0x06#8 ∧ (rawCommand 0x05).cmd = 0x05#8 := by decide

theorem witness_NothingIsDrawnBeforeSeeding :
    (∀ c ∈ [rawCommand 0x02, rawCommand 0x00, rawCommand 0x05, rawCommand 0x07], c.cmd ≠ 0x01#8 ∧ c.cmd ≠ 0x06#8) ∧
    (rawCommand 0x06).cmd = 0x06#8 := by decide

theorem witness_ResetZeroesEveryRegister :
    ({ seededWith .gjrand wordsG true 9 with host := [.reset, .powerCycle] } : State).host = .reset :: [.powerCycle] := by
  decide

/-- Idle; a loss of power; a command before the first reset, which faults. -/
theorem witness_IdleHoldsAndPowerLossNeedsReset :
    (seededWith .gjrand wordsG true 9).host = [] ∧
    ({ seededWith .gjrand wordsG true 9 with host := [.powerCycle] } : State).host = .powerCycle :: [] ∧
    faultOf (step { losePower (State.resetOf .gjrand) with host := [.command (rawCommand 0x01)] }) =
      some .beforeReset := by decide

theorem witness_OutsideRequestsAreRefusedByName :
    refusalOf (step { State.resetOf .gjrand with host := [.unarbitrated (rawCommand 0x02) (rawCommand 0x03)] }) =
      some .unarbitratedHosts ∧
    refusalOf (step { State.resetOf .gjrand with host := [.outsideCore .nextDouble] }) =
      some (.outsideCore .nextDouble) := by decide

/-- A state that is not the reset state: seeded, with a true response in it. -/
theorem witness_StepKeepsTheInvariant :
    StateInv { seededWith .gjrand wordsG true 9 with out := 4, response := some ⟨.ok, 4, 0⟩ } := by
  refine ⟨fun _ h => absurd h (by decide), ?_⟩
  intro r hr
  cases hr
  exact ⟨rfl, rfl, .inl rfl, by decide, by decide⟩

theorem witness_OtherInstancesAreUntouched :
    (stepInstance 0 [queued .gjrand 0x06, State.resetOf .jsf64]).isSome = true ∧
    [queued .gjrand 0x06, State.resetOf .jsf64][1]? = some (State.resetOf .jsf64) ∧
    nextOf (step (State.resetOf .jsf64)) = some (State.resetOf .jsf64) := by decide

theorem witness_SerializedSnapshotComesBack : ([0x01, 0x02] : List Byte).length ≠ 40 := by decide

/-- A latency of 2 edges for a command that is performed and of 1 for an error. -/
def lat21 : Latency := ⟨fun _ => 2, 1⟩

theorem lat21_wf : lat21.wf := ⟨fun _ => Nat.le_succ 1, Nat.le_refl 1⟩

/-- Inputs with no command. -/
def quiet : PortIn := ⟨false, false, rawCommand 0⟩

/-- Inputs that offer a command byte. -/
def offer (b : Byte) : PortIn := ⟨false, true, rawCommand b⟩

/-- A seeded block, idle. -/
def idleBlock : Block := ⟨seededWith .gjrand wordsG true 9, .idle⟩

theorem idleBlock_inv : BlockInv idleBlock := by
  refine ⟨⟨fun _ h => absurd h (by decide), ?_⟩, by decide, by decide, ?_⟩
  · intro r hr; cases hr
  · intro c n h; cases h

/-- A performed command with the least latency but one, and an error with the least. -/
theorem witness_ClockedBlockRefinesTheCommandStep :
    BlockInv idleBlock ∧ lat21.wf ∧ idleBlock.core.wasReset = true ∧ idleBlock.phase = .idle ∧
    (offer 0x02).rst = false ∧ (offer 0x02).cmdValid = true ∧ (∀ j ∈ [quiet, offer 0x03], j.rst = false) ∧
    [quiet, offer 0x03].length = latencyOf lat21 (offer 0x02).command idleBlock.core.valid ∧
    [quiet].length = latencyOf lat21 (offer 0x07).command idleBlock.core.valid :=
  ⟨idleBlock_inv, lat21_wf, by decide⟩

/-- Reset in the middle of a SEED. -/
theorem witness_ResetAbortsWhateverIsInFlight :
    (⟨true, true, rawCommand 0x02⟩ : PortIn).rst = true ∧
    nextOf (edge lat21 ⟨State.resetOf .gjrand, .busy (rawCommand 0x01) 2⟩ ⟨true, true, rawCommand 0x02⟩) =
      some (Block.resetOf .gjrand) := by decide

theorem witness_NothingIsAcceptedInFlight :
    (⟨State.resetOf .gjrand, .busy (rawCommand 0x01) 2⟩ : Block).phase ≠ .idle ∧
    (⟨State.resetOf .gjrand, .responding⟩ : Block).phase ≠ .idle ∧
    (State.resetOf .gjrand).wasReset = true ∧ (offer 0x02).rst = false ∧ quiet.rst = false ∧
    quiet.cmdValid = false ∧ idleBlock.phase = .idle := by decide

theorem witness_ResponseLastsOneCycle :
    BlockInv ⟨{ seededWith .gjrand wordsG true 9 with response := some ⟨.ok, 0, 0⟩ }, .responding⟩ ∧
    quiet.rst = false := by
  refine ⟨⟨⟨fun _ h => absurd h (by decide), ?_⟩, by decide, by decide, ?_⟩, rfl⟩
  · intro r hr; cases hr; exact ⟨rfl, rfl, .inl rfl, by decide, by decide⟩
  · intro c n h; cases h

/-- One command that answers OK, one that answers an error. -/
theorem witness_LatencyGoesByTheStatus :
    (nextOf (performCommand (rawCommand 0x05) (seededWith .gjrand wordsG true 9))).map
      (fun t => t.response.map (·.status)) = some (some .ok) ∧
    (nextOf (performCommand (rawCommand 0x05) (State.resetOf .gjrand))).map
      (fun t => t.response.map (·.status)) = some (some .errUnseeded) := by decide

/-- The invariant of a block to go on from, and the fault's case: a command before the first reset. -/
theorem witness_EdgeKeepsThePortInvariant :
    lat21.wf ∧ BlockInv idleBlock ∧ faultOf (edge lat21 (Block.powerUp .gjrand) (offer 0x01)) = some .beforeReset :=
  ⟨lat21_wf, idleBlock_inv, by decide⟩

end Sys2Proof.Tests
end

section
/-! The rotation of the transition functions is the circular one (00_scope.md R11, 40_transition.md R89). -/

namespace Sys2Proof.Machine

/-- R89: below the word's width the shift form is the native rotation. -/
theorem rotl64_eq_rotateLeft (v : Word) {r : Nat} (hr : r < 64) : rotl64 v r = v.rotateLeft r := by
  rw [BitVec.rotateLeft_def, Nat.mod_eq_of_lt hr, rotl64]

/-- R11: bit `i` comes from `r` places below, the low `r` bits from the top of the word. -/
theorem getLsbD_rotl64 (v : Word) {r i : Nat} (hr : r < 64) (hi : i < 64) :
    (rotl64 v r).getLsbD i = v.getLsbD ((i + 64 - r) % 64) := by
  rw [rotl64_eq_rotateLeft v hr, BitVec.getLsbD_rotateLeft_of_le hr]
  by_cases hlow : i < r
  · have hsrc : (i + 64 - r) % 64 = 64 - r + i := by omega
    simp [hlow, hsrc]
  · have hsrc : (i + 64 - r) % 64 = i - r := by omega
    simp [hlow, hi, hsrc]

/-- Settles O7: the bits are those of the native rotation, split at bit `r`. -/
theorem rotationIsCircular : Obligations.RotationIsCircular := by
  intro v r _ hle
  have hr : r < 64 := Nat.lt_succ_of_le hle
  exact ⟨fun _ hi => getLsbD_rotl64 v hr hi, rotl64_eq_rotateLeft v hr⟩

end Sys2Proof.Machine
end

section
/-! What the draws leave in each register (41_output.md R101, R104 to R106), and the instructions and events that later
proofs cite without unfolding `exec` or `step`. -/

namespace Sys2Proof.Machine

variable (s : State)

@[simp] theorem draw64_variant : (draw64 s).variant = s.variant := rfl
@[simp] theorem draw64_words : (draw64 s).words = (transition s.variant s.words).1 := rfl
@[simp] theorem draw64_hasCached : (draw64 s).hasCached = s.hasCached := rfl
@[simp] theorem draw64_cachedValue : (draw64 s).cachedValue = s.cachedValue := rfl
@[simp] theorem draw64_out : (draw64 s).out = (transition s.variant s.words).2 := rfl
@[simp] theorem draw64_valid : (draw64 s).valid = s.valid := rfl
@[simp] theorem draw64_wasReset : (draw64 s).wasReset = s.wasReset := rfl
@[simp] theorem draw64_response : (draw64 s).response = some ⟨.ok, (transition s.variant s.words).2, 0⟩ := rfl
@[simp] theorem draw64_host : (draw64 s).host = s.host := rfl

@[simp] theorem draw32Hit_variant : (draw32Hit s).variant = s.variant := rfl
@[simp] theorem draw32Hit_words : (draw32Hit s).words = s.words := rfl
@[simp] theorem draw32Hit_hasCached : (draw32Hit s).hasCached = false := rfl
@[simp] theorem draw32Hit_cachedValue : (draw32Hit s).cachedValue = s.cachedValue := rfl
@[simp] theorem draw32Hit_out : (draw32Hit s).out = zext64 s.cachedValue := rfl
@[simp] theorem draw32Hit_valid : (draw32Hit s).valid = s.valid := rfl
@[simp] theorem draw32Hit_wasReset : (draw32Hit s).wasReset = s.wasReset := rfl
@[simp] theorem draw32Hit_response : (draw32Hit s).response = some ⟨.ok, zext64 s.cachedValue, 0⟩ := rfl
@[simp] theorem draw32Hit_host : (draw32Hit s).host = s.host := rfl

@[simp] theorem draw32Miss_variant : (draw32Miss s).variant = s.variant := rfl
@[simp] theorem draw32Miss_words : (draw32Miss s).words = (transition s.variant s.words).1 := rfl
@[simp] theorem draw32Miss_hasCached : (draw32Miss s).hasCached = true := rfl
@[simp] theorem draw32Miss_cachedValue :
    (draw32Miss s).cachedValue = highHalf (transition s.variant s.words).2 := rfl
@[simp] theorem draw32Miss_out : (draw32Miss s).out = zext64 (lowHalf (transition s.variant s.words).2) := rfl
@[simp] theorem draw32Miss_valid : (draw32Miss s).valid = s.valid := rfl
@[simp] theorem draw32Miss_wasReset : (draw32Miss s).wasReset = s.wasReset := rfl
@[simp] theorem draw32Miss_response :
    (draw32Miss s).response = some ⟨.ok, zext64 (lowHalf (transition s.variant s.words).2), 0⟩ := rfl
@[simp] theorem draw32Miss_host : (draw32Miss s).host = s.host := rfl

variable {s}

/-- 60_exceptions.md R141: the four commands that need VALID = 1 are turned away while it is 0. -/
theorem exec_unseeded {i : Instr} (hv : s.valid = false)
    (hi : i = .next64 ∨ i = .nextraw ∨ i = .next32 ∨ i = .getstate) : exec i s = .next (raise .errUnseeded s) := by
  rcases hi with rfl | rfl | rfl | rfl <;> simp [exec, execNext64, execNextraw, execNext32, execGetstate, hv]

/-- A reset on the host's list is performed by the next step, whatever state the block is in. -/
theorem step_reset {rest : List HostEvent} (hh : s.host = .reset :: rest) :
    step s = .next (resetRegisters (withHost rest s)) := by
  simp [step, performNext, hh, performEvent]

/-- The only refusals of a step are those of the outside world: a command never ends in one. -/
theorem step_refused_cases {r : Refusal} (h : step s = .refused r) :
    r = .unarbitratedHosts ∨ ∃ op, r = .outsideCore op := by
  unfold step performNext at h
  split at h
  · cases h
  · rename_i e rest _
    cases e with
    | command c =>
      obtain ⟨t, ht⟩ := performCommand_next c (withHost rest s)
      simp only [performEvent, ht] at h
      split at h <;> cases h
    | reset | powerCycle => cases h
    | unarbitrated a b => cases h; exact .inl rfl
    | outsideCore op => cases h; exact .inr ⟨op, rfl⟩

end Sys2Proof.Machine
end

section
/-! `StateInv` is established by every event of the outside world. A state either shows no response, or was left by
`respond`; one rule for each, and the step lemma is assembled from them. -/

namespace Sys2Proof.Machine

/-- With no response shown, only the registers of an unseeded block matter. -/
theorem stateInv_of_response_none {s : State} (hr : s.response = none)
    (hreg : s.wasReset = true → s.valid = false → RegistersAtReset s) : StateInv s :=
  ⟨hreg, fun r h => by simp [hr] at h⟩

/-- Right after a response, it is true if its snapshot is zero or that of a seeded block under OK, and ERR_UNSEEDED is
reported only while VALID = 0 (20_memory.md R46, 60_exceptions.md R140). -/
theorem stateInv_respond {s : State} {st : Status} {x : SnapshotBus} (hw : s.wasReset = true)
    (hreg : s.valid = false → RegistersAtReset s)
    (hsnap : x = 0 ∨ st = .ok ∧ x = (snapshotOf s).pack ∧ s.valid = true)
    (hst : st = .errUnseeded → s.valid = false) : StateInv (respond st x s) := by
  refine ⟨fun _ => hreg, fun r hr => ?_⟩
  cases hr
  exact ⟨hw, rfl, hsnap.imp_right fun ⟨hok, hx, _⟩ => ⟨hok, hx⟩, hst, fun hx => (hsnap.resolve_left hx).2.2⟩

/-- On a seeded block the registers may hold anything, so an OK response with a zero snapshot is true. -/
theorem stateInv_respond_ok {s : State} (hw : s.wasReset = true) (hv : s.valid = true) :
    StateInv (respond .ok 0 s) :=
  stateInv_respond hw (by simp [hv]) (.inl rfl) nofun

/-- Every command on a reset block leaves the invariant. -/
theorem performCommand_stateInv {c : Command} {s t : State} (h : performCommand c s = .next t)
    (hw : s.wasReset = true) (hreg : s.valid = false → RegistersAtReset s) : StateInv t := by
  rcases performCommand_cases h with
    ⟨-, rfl⟩ | ⟨-, hv, rfl⟩ | ⟨-, rfl⟩ | ⟨-, hv, rfl⟩ | ⟨-, hv, -, rfl⟩ | ⟨-, hv, -, rfl⟩ | ⟨-, hv, rfl⟩ | ⟨-, rfl⟩
  · exact stateInv_respond hw hreg (.inl rfl) nofun
  · exact stateInv_respond hw hreg (.inl rfl) fun _ => hv
  · exact stateInv_respond_ok hw rfl
  · exact stateInv_respond_ok hw hv
  · exact stateInv_respond_ok hw hv
  · exact stateInv_respond_ok hw hv
  · exact stateInv_respond hw hreg (.inr ⟨rfl, rfl, hv⟩) nofun
  · exact stateInv_respond_ok hw rfl

/-- A step that goes on keeps the invariant. -/
theorem step_stateInv {s t : State} (hs : StateInv s) (h : step s = .next t) : StateInv t := by
  obtain ⟨hreg, -⟩ := hs
  rcases step_cases h with ⟨-, rfl⟩ | ⟨rest, -, rfl⟩ | ⟨rest, -, rfl⟩ | ⟨c, rest, -, hw, hc⟩
  · exact stateInv_of_response_none rfl hreg
  · exact stateInv_of_response_none rfl fun _ _ => ⟨rfl, rfl, rfl, rfl, rfl⟩
  · exact stateInv_of_response_none rfl nofun
  · exact performCommand_stateInv hc hw (hreg hw)

/-- Settles O42: a step that goes on keeps the invariant, and every stop is one of the outside world. -/
theorem stepKeepsTheInvariant : Obligations.StepKeepsTheInvariant := by
  intro s hs
  cases h : step s with
  | next t => exact step_stateInv hs h
  | fault f => cases f; rfl
  | refused r => exact step_refused_cases h

theorem stateInv_resetOf (v : Variant) : StateInv (State.resetOf v) :=
  stateInv_of_response_none rfl fun _ _ => ⟨rfl, rfl, rfl, rfl, rfl⟩

/-- An idle block that shows no response needs no more than its registers' invariant. -/
theorem blockInv_idle {s : State} (hs : StateInv s) (hr : s.response = none) : BlockInv ⟨s, .idle⟩ :=
  ⟨hs, by simp [hr], fun _ => rfl, nofun⟩

/-- Settles O41: none of these states shows a response, and each is at reset or was not reset. -/
theorem invariantsHoldAtReset : Obligations.InvariantsHoldAtReset :=
  ⟨stateInv_resetOf _, fun v =>
    ⟨stateInv_resetOf v, blockInv_idle (stateInv_resetOf v) rfl,
      blockInv_idle (stateInv_of_response_none rfl nofun) rfl⟩⟩

end Sys2Proof.Machine
end

section
/-! Who writes which register (10_state.md R21 to R26), and reset (R31). -/

namespace Sys2Proof.Machine

/-- Settles O38: the step is `resetRegisters`, after which VALID = 0 turns the four commands away. -/
theorem resetZeroesEveryRegister : Obligations.ResetZeroesEveryRegister := by
  intro s rest hh
  exact ⟨_, step_reset hh, rfl, rfl, rfl, rfl, rfl, rfl, rfl, rfl, rfl, fun i hi => exec_unseeded rfl hi⟩

/-- Settles O24: the writers of each register, read off the list of all that a command can do. -/
theorem registersChangeOnlyByTheirWriters : Obligations.RegistersChangeOnlyByTheirWriters := by
  intro s t c h
  rcases performCommand_cases h with
    ⟨-, rfl⟩ | ⟨-, -, rfl⟩ | ⟨hc, rfl⟩ | ⟨hc, hv, rfl⟩ | ⟨hc, hv, hm, rfl⟩ | ⟨hc, hv, hm, rfl⟩ | ⟨-, -, rfl⟩ | ⟨hc, rfl⟩
  · simp
  · simp
  · simp [hc]
  · rcases hc with hc | hc <;> simp [hc, hv]
  · simp [hc, hv]
  · simp [hc, hv, hm]
  · simp
  · simp [hc]

/-- 10_state.md R26: what is no draw, or is one while VALID = 0, leaves OUT. -/
theorem performCommand_out_of_not_draw {c : Command} {s t : State} (h : performCommand c s = .next t)
    (hn : ¬ (s.valid = true ∧ (c.cmd = 0x02#8 ∨ c.cmd = 0x03#8 ∨ c.cmd = 0x04#8))) : t.out = s.out := by
  rcases performCommand_cases h with
    ⟨-, rfl⟩ | ⟨-, -, rfl⟩ | ⟨-, rfl⟩ | ⟨hc, hv, -⟩ | ⟨hc, hv, -⟩ | ⟨hc, hv, -⟩ | ⟨-, -, rfl⟩ | ⟨-, rfl⟩
  · rfl
  · rfl
  · rfl
  · exact absurd ⟨hv, hc.imp_right .inr⟩ hn
  · exact absurd ⟨hv, .inr (.inl hc)⟩ hn
  · exact absurd ⟨hv, .inr (.inl hc)⟩ hn
  · rfl
  · rfl

/-- 20_memory.md R46: every command responds, and `rsp_data` is OUT after it. -/
theorem performCommand_response {c : Command} {s t : State} (h : performCommand c s = .next t) :
    ∃ r, t.response = some r ∧ r.data = t.out := by
  rcases performCommand_cases h with
    ⟨-, rfl⟩ | ⟨-, -, rfl⟩ | ⟨-, rfl⟩ | ⟨-, -, rfl⟩ | ⟨-, -, -, rfl⟩ | ⟨-, -, -, rfl⟩ | ⟨-, -, rfl⟩ | ⟨-, rfl⟩ <;>
    exact ⟨_, rfl, rfl⟩

/-- 41_output.md R105, R106: what a seeded NEXT32 leaves in OUT. -/
theorem after_next32_out_toNat {c : Command} {s : State} (hv : s.valid = true) (hc : c.cmd = 0x03#8) :
    (after c s).out.toNat =
      if s.hasCached then s.cachedValue.toNat else (transition s.variant s.words).2.toNat % 2 ^ 32 := by
  rw [after_next32 hv hc]
  cases s.hasCached
  · exact (zext64_toNat _).trans (lowHalf_toNat _)
  · exact zext64_toNat _

/-- Settles O25: the draws by their own lemmas, every other command leaves OUT. -/
theorem outHoldsTheLastSuccessfulDraw : Obligations.OutHoldsTheLastSuccessfulDraw := by
  intro s t c h
  refine ⟨performCommand_out_of_not_draw h, fun hv hc => ?_, fun hv hc => ?_, performCommand_response h⟩
  · rw [← after_eq h, after_draw64 hv hc, draw64_out]
  · rw [← after_eq h, after_next32_out_toNat hv hc]

/-- 10_state.md R25: VALID after a command is 1 exactly if it was 1 before, or the command is SEED or SETSTATE. -/
theorem performCommand_valid_iff {c : Command} {s t : State} (h : performCommand c s = .next t) :
    t.valid = true ↔ s.valid = true ∨ c.cmd = 0x01#8 ∨ c.cmd = 0x06#8 := by
  rcases performCommand_cases h with
    ⟨hc, rfl⟩ | ⟨hc, -, rfl⟩ | ⟨hc, rfl⟩ | ⟨-, hv, rfl⟩ | ⟨-, hv, -, rfl⟩ | ⟨-, hv, -, rfl⟩ | ⟨-, hv, rfl⟩ | ⟨hc, rfl⟩
  · have h1 : c.cmd ≠ 0x01#8 := by rintro e; simp [e] at hc
    have h6 : c.cmd ≠ 0x06#8 := by rintro e; simp [e] at hc
    simp [h1, h6]
  · rcases hc with hc | hc | hc | hc <;> simp [hc]
  · simp [hc]
  · simp [hv]
  · simp [hv]
  · simp [hv]
  · simp [hv]
  · simp [hc]

/-- The bytes `0x02` to `0x05` as numbers. -/
theorem needsSeeded_byte_of_toNat {b : Byte} (h2 : 2 ≤ b.toNat) (h5 : b.toNat ≤ 5) :
    b = 0x02#8 ∨ b = 0x03#8 ∨ b = 0x04#8 ∨ b = 0x05#8 := by
  bv_omega

/-- Settles O26: VALID follows `performCommand_valid_iff` on a command; of the other events only reset writes it. -/
theorem validRisesBySeedingAndFallsByReset : Obligations.ValidRisesBySeedingAndFallsByReset := by
  intro s t h
  have hpin : t.wasReset = true → seededPin t = some t.valid := fun hw => by simp [seededPin, hw]
  rcases step_cases h with ⟨hh, rfl⟩ | ⟨rest, hh, rfl⟩ | ⟨rest, hh, rfl⟩ | ⟨d, rest, hh, -, hd⟩
  · simp +contextual [hh, hpin]
  · simpa [hh] using hpin
  · simp [hh]
  · have hvalid := performCommand_valid_iff hd
    simp only [withHost_valid] at hvalid
    simp only [hh, List.head?_cons, Option.some.injEq, HostEvent.command.injEq, reduceCtorEq, false_implies]
    refine ⟨fun _ hs ht => ?_, fun _ hs ht => ?_, ?_, trivial, ?_, hpin⟩
    · exact absurd (hvalid.2 (.inl hs)) (by simp [ht])
    · exact ⟨d, rfl, (hvalid.1 ht).resolve_left (by simp [hs])⟩
    · rintro c rfl hc
      exact hvalid.2 (.inr hc)
    · rintro c r rfl h2 h5 hs hr
      have ht : t = raise .errUnseeded (withHost rest s) :=
        (after_eq hd).symm.trans (after_unseeded hs (needsSeeded_byte_of_toNat h2 h5))
      subst ht
      cases hr
      exact ⟨rfl, rfl, rfl, rfl, rfl, rfl⟩

end Sys2Proof.Machine
end

section
/-! What the words determine (10_state.md R22), and several instances (R33). -/

namespace Sys2Proof.Machine

/-- Settles O35: a 64-bit draw reads VARIANT and the words alone, and keeps the agreement of the two instances. -/
theorem wordsDetermineTheSixtyFourBitStream : Obligations.WordsDetermineTheSixtyFourBitStream := by
  intro s t cs
  induction cs generalizing s t with
  | nil => intro _ hw _ _ _; exact ⟨rfl, hw⟩
  | cons c cs ih =>
    intro hvar hw hs ht hcs
    obtain ⟨hc, hcs⟩ := List.forall_mem_cons.1 hcs
    obtain ⟨hans, hend⟩ := ih (draw64 s) (draw64 t) hvar (by simp [hvar, hw]) hs ht hcs
    simp only [answers, afterAll, after_draw64 hs hc, after_draw64 ht hc]
    exact ⟨by simp [hans, hvar, hw], hend⟩

/-- The system's step goes on exactly if the own step of its block `k` does, and then replaces that block alone. -/
theorem stepInstance_eq_next_iff {k : Nat} {sys sys' : List State} :
    stepInstance k sys = some (.next sys') ↔
      ∃ s t, sys[k]? = some s ∧ step s = .next t ∧ sys' = sys.set k t := by
  induction sys generalizing k sys' with
  | nil => simp [stepInstance]
  | cons a rest ih =>
    cases k with
    | zero => cases h : step a <;> simp [stepInstance, h, eq_comm]
    | succ k =>
      have hrest : stepInstance (k + 1) (a :: rest) = some (.next sys') ↔
          ∃ rest', stepInstance k rest = some (.next rest') ∧ sys' = a :: rest' := by
        rcases h : stepInstance k rest with _ | _ | _ | _ <;> simp [stepInstance, h, eq_comm]
      simp only [hrest, ih, List.getElem?_cons_succ, List.set_cons_succ]
      constructor
      · rintro ⟨_, ⟨s, t, hk, hst, rfl⟩, rfl⟩
        exact ⟨s, t, hk, hst, rfl⟩
      · rintro ⟨s, t, hk, hst, rfl⟩
        exact ⟨_, ⟨s, t, hk, hst, rfl⟩, rfl⟩

/-- Settles O43: a step of the system is `List.set` at the block that stepped. -/
theorem otherInstancesAreUntouched : Obligations.OtherInstancesAreUntouched := by
  refine ⟨fun k sys sys' h => ?_, fun k sys s t hk hst => ?_⟩
  · obtain ⟨s, t, hk, hst, rfl⟩ := stepInstance_eq_next_iff.1 h
    obtain ⟨hlt, -⟩ := List.getElem?_eq_some_iff.1 hk
    exact ⟨List.length_set, fun j hj => List.getElem?_set_ne hj.symm, s, t, hk, List.getElem?_set_self hlt, hst⟩
  · exact ⟨_, stepInstance_eq_next_iff.2 ⟨s, t, hk, hst, rfl⟩⟩

end Sys2Proof.Machine
end

section
/-! The block at its ports (20_memory.md R44 to R47, 70_reset_and_hazards.md R160 to R170): one equation for each kind of
edge, what the outputs show, and `BlockInv` established phase by phase. -/

namespace Sys2Proof.Machine

/-- Every latency is at least 1 (R170), whichever of them the command takes. -/
theorem one_le_latencyOf {lat : Latency} (hlat : lat.wf) (c : Command) (valid : Bool) : 1 ≤ latencyOf lat c valid := by
  obtain ⟨hop, herr⟩ := hlat
  unfold latencyOf
  split
  · exact hop _
  · exact herr

/-- A command at the head of the list is performed by the next step, on the state with the rest of the list. -/
theorem step_withHost_command {s : State} (c : Command) (rest : List HostEvent) (hw : s.wasReset = true) :
    step (withHost (.command c :: rest) s) = .next (after c (withHost rest s)) :=
  (step_command (s := withHost (.command c :: rest) s) hw rfl).trans (performCommand_after c _)

variable {lat : Latency} {s : State} {i : PortIn}

/-- R47: an idle block that is offered a command accepts it. -/
theorem edge_idle_offer (hw : s.wasReset = true) (hr : i.rst = false) (hv : i.cmdValid = true) :
    edge lat ⟨s, .idle⟩ i = .next ⟨s, .busy i.command (latencyOf lat i.command s.valid)⟩ := by
  simp [edge, hw, hr, hv]

theorem edge_idle_quiet (hw : s.wasReset = true) (hr : i.rst = false) (hv : i.cmdValid = false) :
    edge lat ⟨s, .idle⟩ i = .next ⟨s, .idle⟩ := by
  simp [edge, hw, hr, hv]

/-- R169: a command in flight takes effect at its last edge, and nothing happens before. -/
theorem edge_busy {c : Command} {n : Nat} (hw : s.wasReset = true) (hr : i.rst = false) :
    edge lat ⟨s, .busy c n⟩ i =
      .next (if n ≤ 1 then ⟨after c s, .responding⟩ else ⟨s, .busy c (n - 1)⟩) := by
  by_cases hn : n ≤ 1 <;> simp [edge, hw, hr, hn, finish, performCommand_after]

theorem edge_responding (hw : s.wasReset = true) (hr : i.rst = false) :
    edge lat ⟨s, .responding⟩ i = .next ⟨holdIdle s, .idle⟩ := by
  simp [edge, hw, hr]

/-- R160: reset takes priority over whatever else happens at the edge. -/
theorem edge_rst (b : Block) (hr : i.rst = true) : edge lat b i = .next ⟨resetRegisters b.core, .idle⟩ := by
  simp [edge, hr]

/-- R163: an edge goes on, except that a command before the first reset stops the block. -/
theorem edge_next_or_fault (lat : Latency) (b : Block) (i : PortIn) :
    (∃ b', edge lat b i = .next b') ∨
    (edge lat b i = .fault .beforeReset ∧ b.core.wasReset = false ∧ i.rst = false ∧ i.cmdValid = true) := by
  obtain ⟨s, p⟩ := b
  cases hr : i.rst with
  | true => exact .inl ⟨_, edge_rst _ hr⟩
  | false =>
    cases hw : s.wasReset with
    | false => cases hv : i.cmdValid <;> simp [edge, hr, hw, hv]
    | true =>
      left
      cases p with
      | idle =>
        cases hv : i.cmdValid with
        | true => exact ⟨_, edge_idle_offer hw hr hv⟩
        | false => exact ⟨_, edge_idle_quiet hw hr hv⟩
      | busy c n => exact ⟨_, edge_busy hw hr⟩
      | responding => exact ⟨_, edge_responding hw hr⟩

/-- What a block that was reset shows while `rst` = 0. -/
theorem outputs_of_not_rst {b : Block} (hw : b.core.wasReset = true) (hr : i.rst = false) :
    outputs b i = some ⟨b.phase == .idle, if b.phase = .responding then b.core.response else none, b.core.valid⟩ := by
  simp [outputs, hw, hr]

/-! The invariant of each phase; `blockInv_idle` is that of an idle block. -/

theorem blockInv_busy {c : Command} {n : Nat} (hs : StateInv s) (hw : s.wasReset = true) (hr : s.response = none)
    (hn : 1 ≤ n) : BlockInv ⟨s, .busy c n⟩ :=
  ⟨hs, by simp [hr], by simp [hw], by rintro _ _ ⟨⟩; exact hn⟩

theorem blockInv_responding (hs : StateInv s) (hw : s.wasReset = true) (hr : s.response.isSome = true) :
    BlockInv ⟨s, .responding⟩ :=
  ⟨hs, by simp [hr], by simp [hw], nofun⟩

theorem BlockInv.response_eq_none {b : Block} (hb : BlockInv b) (hp : b.phase ≠ .responding) :
    b.core.response = none := by
  obtain ⟨-, hresp, -⟩ := hb
  simpa using mt hresp.1 hp

theorem after_wasReset (c : Command) (s : State) : (after c s).wasReset = s.wasReset := by
  obtain ⟨-, -, -, -, hw, -⟩ := registersChangeOnlyByTheirWriters s _ c (performCommand_after c s)
  exact hw

theorem after_response_isSome (c : Command) (s : State) : (after c s).response.isSome = true := by
  obtain ⟨r, hr, -⟩ := performCommand_response (performCommand_after c s)
  simp [hr]

/-- An edge that goes on keeps the invariant. -/
theorem edge_blockInv {b b' : Block} (hlat : lat.wf) (hb : BlockInv b) (h : edge lat b i = .next b') :
    BlockInv b' := by
  have ⟨hs, _⟩ := hb
  have ⟨hreg, _⟩ := hs
  rcases edge_cases h with
    ⟨-, rfl⟩ | ⟨-, -, -, rfl⟩ | ⟨-, -, -, -, rfl⟩ | ⟨-, hw, hp, -, rfl⟩ | ⟨c, n, -, hw, hp, hn, rfl⟩ |
    ⟨c, n, -, hw, hp, -, rfl⟩ | ⟨-, -, -, rfl⟩
  · exact blockInv_idle (stateInv_of_response_none rfl fun _ _ => ⟨rfl, rfl, rfl, rfl, rfl⟩) rfl
  · exact hb
  · exact hb
  · exact blockInv_busy hs hw (hb.response_eq_none (by simp [hp])) (one_le_latencyOf hlat _ _)
  · exact blockInv_busy hs hw (hb.response_eq_none (by simp [hp])) (by omega)
  · exact blockInv_responding (performCommand_stateInv (performCommand_after c _) hw (hreg hw))
      ((after_wasReset c _).trans hw) (after_response_isSome c _)
  · exact blockInv_idle (stateInv_of_response_none rfl hreg) rfl

end Sys2Proof.Machine
end

section
/-! The statements about the block at its ports. -/

namespace Sys2Proof.Machine

/-- Settles O50: an edge that goes on keeps the invariant, and the only stop is the fault of R163. -/
theorem edgeKeepsThePortInvariant : Obligations.EdgeKeepsThePortInvariant := by
  intro lat b i hlat hb
  rcases edge_next_or_fault lat b i with ⟨b', h⟩ | ⟨h, hstop⟩ <;> rw [h]
  · exact edge_blockInv hlat hb h
  · exact ⟨rfl, hstop⟩

/-- Settles O47: `edge_busy`, `edge_responding` and `edge_idle_quiet` read no input but `rst` and `cmd_valid`. -/
theorem nothingIsAcceptedInFlight : Obligations.NothingIsAcceptedInFlight := by
  refine ⟨fun lat b i j hw hp hi hj => ?_, fun lat b i hw hp hi hv => ?_⟩
  · refine ⟨?_, _, outputs_of_not_rst hw hi, by simpa using hp⟩
    obtain ⟨s, p⟩ := b
    cases p with
    | idle => exact absurd rfl hp
    | busy c n => rw [edge_busy hw hi, edge_busy hw hj]
    | responding => rw [edge_responding hw hi, edge_responding hw hj]
  · refine ⟨?_, _, outputs_of_not_rst hw hi, by simp [hp]⟩
    obtain ⟨s, p⟩ := b
    subst hp
    exact edge_idle_quiet hw hi hv

/-- Settles O48: the invariant gives the response that is shown, and `holdIdle` takes it away alone. -/
theorem responseLastsOneCycle : Obligations.ResponseLastsOneCycle := by
  rintro lat ⟨s, p⟩ i ⟨-, hresp, hreset, -⟩ rfl hi
  have hw : s.wasReset = true := by simpa using hreset
  obtain ⟨r, hr⟩ := Option.isSome_iff_exists.1 (hresp.2 rfl)
  exact ⟨⟨_, r, outputs_of_not_rst hw hi, hr⟩, _, edge_responding hw hi, ⟨rfl, rfl, rfl, rfl, rfl⟩,
    fun j hj => outputs_of_not_rst hw hj⟩

/-- R170: before its last edge a command in flight only comes nearer to its end. -/
theorem edges_busy_of_length_lt {lat : Latency} {s : State} {c : Command} {n : Nat} {is : List PortIn}
    (hw : s.wasReset = true) (his : ∀ j ∈ is, j.rst = false) (hn : is.length < n) :
    edges lat ⟨s, .busy c n⟩ is = .next ⟨s, .busy c (n - is.length)⟩ := by
  induction is generalizing n with
  | nil => rfl
  | cons i is ih =>
    obtain ⟨hi, his⟩ := List.forall_mem_cons.1 his
    rw [List.length_cons] at hn
    rw [edges, edge_busy hw hi, if_neg (by omega)]
    simpa [Nat.sub_sub, Nat.add_comm] using ih his (n := n - 1) (by omega)

/-- R169: at its last edge it takes all its effects. -/
theorem edges_busy_of_length_eq {lat : Latency} {s : State} {c : Command} {is : List PortIn}
    (hw : s.wasReset = true) (his : ∀ j ∈ is, j.rst = false) (hn : is ≠ []) :
    edges lat ⟨s, .busy c is.length⟩ is = .next ⟨after c s, .responding⟩ := by
  obtain ⟨js, i, rfl⟩ := (List.eq_nil_or_concat' is).resolve_left hn
  have hjs := edges_busy_of_length_lt (lat := lat) (c := c) (n := (js ++ [i]).length) (is := js) hw
    (fun j hj => his j (by simp [hj])) (by simp)
  have hi : i.rst = false := his i (by simp)
  rw [edges_append _ _ hjs]
  simp [edges, edge_busy hw hi]

/-- Settles O45: the acceptance edge, then the edges in flight, the last of which is the command-level step. -/
theorem clockedBlockRefinesTheCommandStep : Obligations.ClockedBlockRefinesTheCommandStep := by
  rintro lat ⟨s, p⟩ i is hlat hb hw rfl hi hv his hlen
  have haccept (js : List PortIn) : edges lat ⟨s, .idle⟩ (i :: js) = edges lat ⟨s, .busy i.command is.length⟩ js := by
    rw [edges, edge_idle_offer hw hi hv, hlen]
  have hne : is ≠ [] := by
    rw [← List.length_pos_iff, hlen]
    exact one_le_latencyOf hlat _ _
  refine ⟨after i.command s, step_withHost_command _ s.host hw, ?_, fun j hj => ?_, fun n hn => ?_⟩
  · rw [haccept, edges_busy_of_length_eq hw his hne]
  · exact ⟨outputs_of_not_rst ((after_wasReset _ s).trans hw) hj, after_response_isSome _ s⟩
  · refine ⟨_, (haccept _).trans (edges_busy_of_length_lt hw (fun j hj => his j (List.mem_of_mem_take hj)) ?_), rfl,
      fun j hj => outputs_of_not_rst hw hj⟩
    simpa using hn

end Sys2Proof.Machine
end

section
/-! What a command shows of the registers (20_memory.md R46), its repetition (R50), and the host's order (R51). -/

namespace Sys2Proof.Machine

/-- Settles O23: `performCommand_response` for the data, and the snapshot read off the list of all a command can do. -/
theorem responseShowsOutAndSnapshot : Obligations.ResponseShowsOutAndSnapshot := by
  intro s t c r h hr
  refine ⟨?_, ?_⟩
  · obtain ⟨r', hr', hdata⟩ := performCommand_response h
    cases hr.symm.trans hr'
    exact hdata
  · rcases performCommand_cases h with
      ⟨-, rfl⟩ | ⟨-, -, rfl⟩ | ⟨hc, rfl⟩ | ⟨hc, -, rfl⟩ | ⟨hc, -, -, rfl⟩ | ⟨hc, -, -, rfl⟩ | ⟨hc, -, rfl⟩ | ⟨hc, rfl⟩ <;>
      cases hr
    · simp
    · simp
    · simp [hc]
    · rcases hc with hc | hc <;> simp [hc]
    · simp [hc]
    · simp [hc]
    · rw [if_pos ⟨hc, rfl⟩]; rfl
    · simp [hc]

/-- Settles O27, by induction on the commands: each is performed whatever the list holds after it. -/
theorem commandsTakeEffectInOrder : Obligations.CommandsTakeEffectInOrder := by
  intro cs rest s hw
  induction cs generalizing s with
  | nil => rfl
  | cons c cs ih =>
    have hstep := step_withHost_command c (cs.map .command ++ rest) hw
    rw [after_withHost] at hstep
    have hrest := ih (after c s) ((after_wasReset c s).trans hw)
    rw [afterAll]
    calc _ = _ := run_succ hstep
      _ = .next (afterAll cs (withHost rest (after c s))) := hrest
      _ = .next (afterAll cs (after c (withHost rest s))) := by rw [after_withHost]

/-- Settles O36: SEED and SETSTATE write what does not depend on what they write; GETSTATE writes no register. -/
theorem seedAndSetstateAreIdempotent : Obligations.SeedAndSetstateAreIdempotent := by
  refine ⟨fun s c hc => ?_, fun s c hc => ?_⟩
  · rcases hc with hc | hc
    · simp [SameGenerator, after_seed _ hc]
    · simp [SameGenerator, after_setstate _ hc]
  · cases hv : s.valid with
    | false =>
      have h (t : State) (ht : t.valid = false) := after_unseeded ht (.inr (.inr (.inr hc)))
      rw [h s hv, h (raise _ s) hv]
      exact ⟨⟨rfl, rfl, rfl, rfl, rfl⟩, rfl⟩
    | true =>
      have h (t : State) (ht : t.valid = true) := after_getstate ht hc
      rw [h s hv, h (respond _ _ s) hv]
      exact ⟨⟨rfl, rfl, rfl, rfl, rfl⟩, rfl⟩

/-- Settles O40: the event at the head of the list is refused before any register is looked at. -/
theorem outsideRequestsAreRefusedByName : Obligations.OutsideRequestsAreRefusedByName :=
  ⟨fun s a b rest hh => by simp [step, performNext, hh, performEvent],
    fun s op rest hh => by simp [step, performNext, hh, performEvent]⟩

end Sys2Proof.Machine
end

section
/-! A snapshot as bytes, and on the bus (20_memory.md R43, 30_encoding.md R69). -/

namespace Sys2Proof.Machine

/-- Putting 40 bytes back in their places. -/
theorem reorder_symm_reorder (order : ByteOrder) {bs : List Byte} (h : bs.length = 40) :
    reorder order.symm (reorder order bs) = bs := by
  apply List.ext_getElem?
  intro k
  by_cases hk : k < 40
  · rw [reorder_getElem? order.symm _ ⟨k, hk⟩, List.getD_eq_getElem?_getD, reorder_getElem?, Equiv.apply_symm_apply]
    simp [h, hk]
  · simp [reorder, h, hk]

@[simp] theorem reorder_length (order : ByteOrder) (bs : List Byte) : (reorder order bs).length = 40 := by
  simp [reorder]

/-- R43: no order of the bytes loses a bit of the bus. -/
theorem deserialize_serialize (order : ByteOrder) (bus : SnapshotBus) :
    deserialize order (serialize order bus) = some bus := by
  have hbus : numberOf (bytesOf 40 bus.toNat) = bus.toNat :=
    (numberOf_bytesOf 40 _).trans (Nat.mod_eq_of_lt (bus.isLt.trans_eq (Nat.pow_mul 2 8 40)))
  rw [deserialize, serialize, if_pos (reorder_length _ _), reorder_symm_reorder order (bytesOf_length _ _), hbus,
    BitVec.ofNat_toNat, BitVec.setWidth_eq]

/-- R43: the byte at each place of a serialized snapshot. -/
theorem serialize_getElem? (order : ByteOrder) (bus : SnapshotBus) (k : Fin 40) :
    (serialize order bus)[k.val]? = some (bus.extractLsb' (8 * (order k).val) 8) := by
  rw [serialize, reorder_getElem?, bytesOf_getD _ _ _ (order k).isLt]
  congr 1
  apply BitVec.eq_of_toNat_eq
  rw [BitVec.toNat_ofNat, BitVec.extractLsb'_toNat, Nat.shiftRight_eq_div_pow, Nat.pow_mul]

/-- R43: a lane is the word that has the bus's bits from 64 times the lane's number on. -/
theorem lane_eq_of_getLsbD {n i : Nat} {bus : BitVec n} {w : Word}
    (h : ∀ j, j < 64 → bus.getLsbD (64 * i + j) = w.getLsbD j) : lane bus i = w :=
  BitVec.eq_of_getLsbD_eq fun j hj => (lane_getLsbD bus i j hj).trans (h j hj)

/-- R69: every snapshot field is at its place on the bus. -/
theorem unpack_pack (x : Snapshot) : Snapshot.unpack x.pack = x := by
  have h0 : lane x.pack 0 = x.words.s0 := lane_eq_of_getLsbD fun j hj => by simp [Snapshot.pack_getLsbD, hj]
  have h1 : lane x.pack 1 = x.words.s1 := lane_eq_of_getLsbD fun j hj => by grind [Snapshot.pack_getLsbD]
  have h2 : lane x.pack 2 = x.words.s2 := lane_eq_of_getLsbD fun j hj => by grind [Snapshot.pack_getLsbD]
  have h3 : lane x.pack 3 = x.words.s3 := lane_eq_of_getLsbD fun j hj => by grind [Snapshot.pack_getLsbD]
  have hflag : (lane x.pack 4).getLsbD 32 = x.hasCached := by
    rw [lane_getLsbD _ 4 32 (by decide), Snapshot.pack_getLsbD]
    rfl
  have hhalf : (lane x.pack 4).extractLsb' 0 32 = x.cachedValue := by
    apply BitVec.eq_of_getLsbD_eq
    intro j hj
    rw [BitVec.getLsbD_extractLsb', lane_getLsbD _ 4 _ (by omega)]
    grind [Snapshot.pack_getLsbD]
  rw [Snapshot.unpack, h0, h1, h2, h3, hflag, hhalf]

/-- Settles O44: the two round trips, and the length check of `deserialize`. -/
theorem serializedSnapshotComesBack : Obligations.SerializedSnapshotComesBack :=
  ⟨fun order bus => ⟨reorder_length _ _, deserialize_serialize order bus, serialize_getElem? order bus⟩,
    fun _ _ h => if_neg h, unpack_pack⟩

end Sys2Proof.Machine
end

section
/-! From an instruction to the command port and back (30_encoding.md R63, R64, R68 to R70). -/

namespace Sys2Proof

@[simp] theorem opcode_operandsOf (op : Opcode) (c : Command) : (operandsOf op c).opcode = op := by
  cases op <;> rfl

/-- R61, R70: the byte names the operation, and the buses hold its operands. -/
theorem decode_eq_ok_iff {c : Command} {i : Instr} :
    decode c = .ok i ↔ c.cmd = opcodeByte i.opcode ∧ operandsOf i.opcode c = i := by
  constructor
  · intro h
    cases hop : decodeByte c.cmd with
    | error e => simp [decode, hop] at h
    | ok op =>
      have hi : operandsOf op c = i := by simpa [decode, hop] using h
      subst hi
      simpa using (decodeByte_eq_ok_iff _ _).1 hop
  · rintro ⟨hcmd, hi⟩
    rw [Machine.decode_of_cmd _ hcmd, hi]

/-- R68: word `i` comes back from lane `i`. -/
theorem lane_packSeed (w0 w1 w2 : Word) : lane (packSeed w0 w1 w2) 0 = w0 ∧ lane (packSeed w0 w1 w2) 1 = w1 ∧
    lane (packSeed w0 w1 w2) 2 = w2 := by
  refine ⟨Machine.lane_eq_of_getLsbD fun j hj => ?_, Machine.lane_eq_of_getLsbD fun j hj => ?_,
    Machine.lane_eq_of_getLsbD fun j hj => ?_⟩ <;> grind [packSeed_getLsbD]

/-- R68: the three lanes are all of `seed_in`. -/
theorem packSeed_lanes (bus : SeedBus) : packSeed (lane bus 0) (lane bus 1) (lane bus 2) = bus := by
  apply BitVec.eq_of_getLsbD_eq
  intro k hk
  grind [packSeed_getLsbD, lane_getLsbD]

/-- R69: the fields of `state_in` at their bit places. -/
theorem Snapshot.unpack_eq (bus : SnapshotBus) : unpack bus =
    ⟨⟨bus.extractLsb' 0 64, bus.extractLsb' 64 64, bus.extractLsb' 128 64, bus.extractLsb' 192 64⟩,
      bus.getLsbD 288, bus.extractLsb' 256 32⟩ := by
  have hflag : (lane bus 4).getLsbD 32 = bus.getLsbD 288 := lane_getLsbD bus 4 32 (by decide)
  have hhalf : (lane bus 4).extractLsb' 0 32 = bus.extractLsb' 256 32 := by
    apply BitVec.eq_of_getLsbD_eq
    intro j hj
    rw [BitVec.getLsbD_extractLsb', BitVec.getLsbD_extractLsb', Nat.zero_add, lane_getLsbD _ _ _ (by omega)]
  rw [unpack, hflag, hhalf]
  rfl

/-- R69: unpacking drops the spare bits, 289 to 319, and nothing else. -/
theorem Snapshot.getLsbD_pack_unpack (bus : SnapshotBus) (k : Nat) :
    (unpack bus).pack.getLsbD k = (decide (k < 289) && bus.getLsbD k) := by
  rw [unpack_eq, pack_getLsbD]
  simp only [BitVec.getLsbD_extractLsb']
  grind

/-- R69: the spare bits are not looked at. -/
theorem Snapshot.unpack_congr {bus bus' : SnapshotBus}
    (h : ∀ k, k < 289 → bus.getLsbD k = bus'.getLsbD k) : unpack bus = unpack bus' := by
  have hpack : (unpack bus).pack = (unpack bus').pack := by
    apply BitVec.eq_of_getLsbD_eq
    intro k _
    rw [getLsbD_pack_unpack, getLsbD_pack_unpack]
    by_cases hk : k < 289
    · simp [h k hk]
    · simp [hk]
  rw [← Machine.unpack_pack (unpack bus), hpack, Machine.unpack_pack]

/-- The encoder puts every operand where the decoder samples it. -/
theorem operandsOf_encode (i : Instr) : operandsOf i.opcode (encode i) = i := by
  cases i with
  | seed w0 w1 w2 => simp [Instr.opcode, encode, operandsOf, lane_packSeed]
  | setstate x => simp [Instr.opcode, encode, operandsOf, Machine.unpack_pack]
  | _ => rfl

theorem encode_cmd (i : Instr) : (encode i).cmd = opcodeByte i.opcode := by
  cases i <;> rfl

/-- R63, R68, R69: an encoding decodes to its instruction. -/
theorem decode_encode (i : Instr) : decode (encode i) = .ok i :=
  decode_eq_ok_iff.2 ⟨encode_cmd i, operandsOf_encode i⟩

/-- R70: a command is decoded from its byte and from the bus it uses alone. -/
theorem decode_congr {c c' : Command} (hcmd : c.cmd = c'.cmd) (hseed : c.cmd = 0x01#8 → c.seedIn = c'.seedIn)
    (hstate : c.cmd = 0x06#8 → ∀ k, k < 289 → c.stateIn.getLsbD k = c'.stateIn.getLsbD k) :
    decode c = decode c' := by
  cases hop : decodeByte c.cmd with
  | error e => simp only [decode, ← hcmd, hop]
  | ok op =>
    have hbyte := (decodeByte_eq_ok_iff _ _).1 hop
    rw [Machine.decode_of_cmd op hbyte, Machine.decode_of_cmd op (hcmd ▸ hbyte)]
    cases op with
    | seed => simp only [operandsOf, hseed hbyte]
    | setstate => simp only [operandsOf, Snapshot.unpack_congr (hstate hbyte)]
    | _ => rfl

/-- R65 to R67: a byte with a bit of RSV set, or with OP `000` or `111`, is none of `0x01` to `0x06`. -/
theorem reserved_of_fields : ∀ b : Byte, (rsvField b ≠ 0 ∨ opField b = 0b000#3 ∨ opField b = 0b111#3) →
    b.toNat = 0 ∨ 7 ≤ b.toNat := by
  decide

namespace Machine

/-- Settles O1: the round trip, and for a decoded port value each bus rebuilt from the operands sampled from it. -/
theorem decodeAndEncodeAgree : Obligations.DecodeAndEncodeAgree := by
  intro i _
  refine ⟨decode_encode i, fun c h => ?_⟩
  obtain ⟨hcmd, hi⟩ := decode_eq_ok_iff.1 h
  refine ⟨hcmd.trans (encode_cmd i).symm, fun hop => ?_, fun hop k hk => ?_⟩
  · rw [← hi, hop]
    exact (packSeed_lanes c.seedIn).symm
  · rw [← hi, hop]
    have hbit := Snapshot.getLsbD_pack_unpack c.stateIn k
    rw [decide_eq_true hk, Bool.true_and] at hbit
    exact hbit.symm

/-- The table's word for an opcode is its byte; the operands are those of zero buses. -/
theorem decodeTableWord_opcodeByte (op : Opcode) :
    decodeTableWord 8 (opcodeByte op).toNat = some (operandsOf op (rawCommand (opcodeByte op))) := by
  cases op <;> rfl

/-- R69: the snapshot on a zero bus. -/
theorem unpack_zero : Snapshot.unpack 0 = ⟨zeroWords, false, 0⟩ := by
  simp only [Snapshot.unpack_eq, BitVec.ofNat_eq_ofNat, BitVec.getLsbD_zero, BitVec.extractLsb'_zero, zeroWords]

/-- Settles O3: the six bytes by their opcodes; the reserved ones are evaluated. -/
theorem writtenOutBytesDecode : Obligations.WrittenOutBytesDecode :=
  ⟨decodeTableWord_opcodeByte .seed, decodeTableWord_opcodeByte .next64, decodeTableWord_opcodeByte .next32,
    decodeTableWord_opcodeByte .nextraw, decodeTableWord_opcodeByte .getstate,
    (decodeTableWord_opcodeByte .setstate).trans (congrArg (fun x => some (Instr.setstate x)) unpack_zero),
    rfl, rfl, rfl, rfl⟩

/-- Settles O2: each row of the opcode map by `decode_eq_ok_iff`, the other bytes by `decode_error_iff`. -/
theorem everyByteDecodesToItsOpcodeMapRow : Obligations.EveryByteDecodesToItsOpcodeMapRow := by
  intro c
  have hcmd {i : Instr} (h : decode c = .ok i) : c.cmd = opcodeByte i.opcode := (decode_eq_ok_iff.1 h).1
  refine ⟨⟨fun h => ⟨_, _, _, decode_of_cmd .seed h⟩, ?_⟩, ⟨decode_of_cmd .next64, hcmd⟩, ⟨decode_of_cmd .next32, hcmd⟩,
    ⟨decode_of_cmd .nextraw, hcmd⟩, ⟨decode_of_cmd .getstate, hcmd⟩,
    ⟨fun h => ⟨_, decode_of_cmd .setstate h⟩, ?_⟩, (decode_error_iff c).symm, fun s e he => ?_⟩
  · rintro ⟨w0, w1, w2, h⟩
    exact hcmd h
  · rintro ⟨x, h⟩
    exact hcmd h
  · have hafter := after_reserved s ((decode_error_iff c).1 ⟨e, he⟩)
    exact ⟨_, _, performCommand_after c s, congrArg State.response hafter, rfl⟩

theorem performCommand_congr {c c' : Command} (h : decode c = decode c') (s : State) :
    performCommand c s = performCommand c' s := by
  rw [performCommand, performCommand, h]

/-- A port value whose byte is an opcode's is performed as that opcode with its operands (R70). -/
theorem performCommand_of_cmd {c : Command} (op : Opcode) (h : c.cmd = opcodeByte op) (s : State) :
    performCommand c s = exec (operandsOf op c) s := by
  simp only [performCommand, decode_of_cmd op h]

/-- Settles O4: `decode_congr`, and the bit places of the operands. -/
theorem unusedBusCannotAffectACommand : Obligations.UnusedBusCannotAffectACommand := by
  refine ⟨fun c c' s hcmd hseed hstate => performCommand_congr (decode_congr hcmd hseed hstate) s,
    fun c s h => performCommand_of_cmd .seed h s, fun c s h => ?_⟩
  rw [← Snapshot.unpack_eq]
  exact performCommand_of_cmd .setstate h s

/-- Settles O20: whichever field makes the byte reserved, it is none of `0x01` to `0x06`. -/
theorem reservedByteChangesNothing : Obligations.ReservedByteChangesNothing := by
  intro s c rest hw hh hfields
  rw [step_command hw hh, performCommand_after, after_reserved _ (reserved_of_fields c.cmd hfields)]
  rfl

end Machine

end Sys2Proof
end

section
/-! The lanes of `seed_in` (30_encoding.md R68): no transition loses a word, so SEED loses none that it reads. -/

namespace Sys2Proof.Machine

/-- The same word twice under `^^^` cancels. -/
theorem xor_xor_cancel (a b : Word) : a ^^^ b ^^^ b = a := by
  rw [BitVec.xor_assoc, BitVec.xor_self, BitVec.xor_zero]

/-- 40_transition.md R84: the assignments of `step_GJRAND`, undone in reverse order. -/
theorem invGjrand_stepGjrand (w : Words) : invGjrand (stepGjrand w).1 = w := by
  have h19 (v : Word) : rotl64 (rotl64 v 19) 45 = v := rotl64_cancel v 19 (by decide) (by decide)
  have h23 (v : Word) : rotl64 (rotl64 v 23) 41 = v := rotl64_cancel v 23 (by decide) (by decide)
  have h32 (v : Word) : rotl64 (rotl64 v 32) 32 = v := rotl64_cancel v 32 (by decide) (by decide)
  simp only [invGjrand, stepGjrand, BitVec.add_sub_cancel, h19, h23, h32, xor_xor_cancel]

/-- 40_transition.md R87: the old words solved for, from `e` on. -/
theorem invJsf64_stepJsf64 (w : Words) : invJsf64 (stepJsf64 w).1 = w := by
  simp only [invJsf64, stepJsf64, BitVec.add_sub_cancel, BitVec.sub_add_cancel, xor_xor_cancel]

/-- R84, R87: each transition is undone by its stated inverse. -/
theorem invTransition_transition (v : Variant) (w : Words) : invTransition v (transition v w).1 = w := by
  cases v with
  | gjrand => exact invGjrand_stepGjrand w
  | jsf64 => exact invJsf64_stepJsf64 w

theorem advance_injective (v : Variant) (n : Nat) : Function.Injective (advance v n) := by
  induction n with
  | zero => exact fun _ _ h => h
  | succ n ih => exact ih.comp (Function.LeftInverse.injective (invTransition_transition v))

/-- 42_seed_state.md R121: equal placements come from equal words, of those that the variant reads. -/
theorem eq_of_placeSeed_eq {v : Variant} {w0 w1 w2 w0' w1' w2' : Word}
    (h : placeSeed v w0 w1 w2 = placeSeed v w0' w1' w2') : w0 = w0' ∧ w1 = w1' ∧ (v = .jsf64 → w2 = w2') := by
  cases v <;> simpa [placeSeed] using h

/-- Settles O5: bits by lane, gjrand's placement without the third word, and the injectivity of the warm-up. -/
theorem seedBusLanesReachTheirVariant : Obligations.SeedBusLanesReachTheirVariant := by
  refine ⟨fun c hc => ⟨_, _, _, decode_of_cmd .seed hc, fun j hj => ⟨?_, ?_, ?_⟩⟩, fun s w0 w1 w2 w2' hv => ?_,
    fun s w0 w1 w2 w0' w1' w2' => ⟨_, _, rfl, rfl, fun h => ?_⟩, fun s b x x' y hb => ?_⟩
  · simpa using lane_getLsbD c.seedIn 0 j hj
  · exact lane_getLsbD c.seedIn 1 j hj
  · exact lane_getLsbD c.seedIn 2 j hj
  · simp only [exec, execSeed_eq, hv, seededWords_gjrand]
  · exact eq_of_placeSeed_eq (advance_injective _ _ h)
  · exact performCommand_congr (decode_congr (c := ⟨b, x, y⟩) (c' := ⟨b, x', y⟩) rfl (absurd · hb) fun _ _ _ => rfl) s

end Sys2Proof.Machine
end

section
/-! What the lines of the command language assemble to (30_encoding.md R72, R73). -/

namespace Sys2Proof.Machine

theorem isReservedByte_iff {n : Nat} : isReservedByte n = true ↔ n < 256 ∧ (n = 0 ∨ 7 ≤ n) := by
  simp [isReservedByte]
  omega

/-- R72: lane 4 of SETSTATE holds `c` below bit 32, `h` at bit 32, and zero above. -/
theorem lane4_eq {h c : Nat} (hh : h < 2) (hc : c < 2 ^ 32) :
    lane4 h c = 0#31 ++ BitVec.ofBool (h == 1) ++ BitVec.ofNat 32 c := by
  have hc64 : c % 2 ^ 64 = c := Nat.mod_eq_of_lt (hc.trans (by decide))
  have hbit : h = 0 ∨ h = 1 := by omega
  apply BitVec.eq_of_toNat_eq
  rw [lane4, BitVec.toNat_or, BitVec.toNat_shiftLeft, BitVec.toNat_append, BitVec.toNat_append, BitVec.toNat_ofNat,
    BitVec.toNat_ofNat, BitVec.toNat_ofNat, BitVec.toNat_ofNat, hc64, Nat.mod_eq_of_lt hc]
  rcases hbit with rfl | rfl <;> rfl

/-- R69, R72: the lanes that the line writes are the snapshot on the bus. -/
theorem packLanes_lane4 (w : Words) {h c : Nat} (hh : h < 2) (hc : c < 2 ^ 32) :
    packLanes w.s0 w.s1 w.s2 w.s3 (lane4 h c) = Snapshot.pack ⟨w, h == 1, BitVec.ofNat 32 c⟩ := by
  rw [lane4_eq hh hc]
  rfl

/-- R72: a well-formed line that writes an instruction is assembled to its encoding. -/
theorem assemble_of_asmInstr {l : AsmLine} {i : Instr} (hl : l.wf = true) (hi : asmInstr l = some i) :
    assemble l = some (encode i) := by
  refine (if_pos hl).trans ?_
  cases l with
  | raw byte => cases hi
  | setstate s0 s1 s2 s3 h c =>
    cases hi
    simp only [AsmLine.wf, Bool.and_eq_true, decide_eq_true_eq] at hl
    obtain ⟨⟨_, hh⟩, hc⟩ := hl
    rw [encode, ← packLanes_lane4 _ hh hc]
    rfl
  | setstate4 s0 s1 s2 s3 =>
    cases hi
    exact congrArg (fun bus => some (Command.mk 0x06 0 bus)) (packLanes_lane4 ⟨_, _, _, _⟩ (by decide) (by decide))
  | _ => cases hi; rfl

theorem eq_raw_of_asmInstr_eq_none {l : AsmLine} (h : asmInstr l = none) : ∃ byte, l = .raw byte := by
  cases l with
  | raw byte => exact ⟨byte, rfl⟩
  | _ => cases h

/-- Settles O6: a line that writes an instruction is assembled to its encoding, and `.cmd` writes a reserved byte. -/
theorem assembledLineDecodesToWhatItWrites : Obligations.AssembledLineDecodesToWhatItWrites := by
  refine ⟨fun l hl => ?_, fun l hl => ?_, fun w0 w1 => ?_, fun s0 s1 s2 s3 => ?_⟩
  · cases hi : asmInstr l with
    | some i =>
      refine ⟨encode i, assemble_of_asmInstr hl hi, fun i' h => ?_, nofun⟩
      cases h
      exact decode_encode i
    | none =>
      obtain ⟨byte, rfl⟩ := eq_raw_of_asmInstr_eq_none hi
      obtain ⟨hlt, hres⟩ := isReservedByte_iff.1 hl
      refine ⟨rawCommand (BitVec.ofNat 8 byte), if_pos hl, nofun, fun _ => ⟨(decode_error_iff _).2 ?_, rfl, rfl⟩⟩
      rwa [rawCommand, BitVec.toNat_ofNat, Nat.mod_eq_of_lt hlt]
  · exact if_neg (Bool.eq_false_iff.1 hl)
  · exact if_congr (by simp [AsmLine.wf, isWord]) rfl rfl
  · exact if_congr (by simp [AsmLine.wf, isWord]) rfl rfl

end Sys2Proof.Machine
end

section
/-! The transition functions of both variants: what they surface (40_transition.md R82, R85), that they lose nothing
(R84, R87), and gjrand's counter (R83). -/

namespace Sys2Proof.Machine

/-- 40_transition.md R84: the assignments of `step_GJRAND`, on what their undoing left. -/
theorem stepGjrand_invGjrand (w : Words) : (stepGjrand (invGjrand w)).1 = w := by
  have h45 (v : Word) : rotl64 (rotl64 v 45) 19 = v := rotl64_cancel v 45 (by decide) (by decide)
  have h41 (v : Word) : rotl64 (rotl64 v 41) 23 = v := rotl64_cancel v 41 (by decide) (by decide)
  have h32 (v : Word) : rotl64 (rotl64 v 32) 32 = v := rotl64_cancel v 32 (by decide) (by decide)
  simp only [stepGjrand, invGjrand, BitVec.sub_add_cancel, h45, h41, h32, xor_xor_cancel]

/-- 40_transition.md R87: the words solved for give back the four equations of R85. -/
theorem stepJsf64_invJsf64 (w : Words) : (stepJsf64 (invJsf64 w)).1 = w := by
  simp only [stepJsf64, invJsf64, BitVec.add_sub_cancel, BitVec.sub_add_cancel, xor_xor_cancel]

/-- R84, R87: each stated inverse is undone by its transition. -/
theorem transition_invTransition (v : Variant) (w : Words) : (transition v (invTransition v w)).1 = w := by
  cases v with
  | gjrand => exact stepGjrand_invGjrand w
  | jsf64 => exact stepJsf64_invJsf64 w

/-- Settles O8: the stated inverse is one on both sides. -/
theorem transitionsAreBijections : Obligations.TransitionsAreBijections := fun v =>
  ⟨invTransition_transition v, transition_invTransition v,
    Function.bijective_iff_has_inverse.2 ⟨_, invTransition_transition v, transition_invTransition v⟩⟩

/-- Settles O9: the assignments of R82 and R85, with the rotations as native ones (R89). -/
theorem transitionOutputIsAStateWord : Obligations.TransitionOutputIsAStateWord := by
  intro w
  rw [← rotl64_eq_rotateLeft w.s1 (by decide), ← rotl64_eq_rotateLeft w.s2 (by decide),
    ← rotl64_eq_rotateLeft w.s3 (by decide)]
  exact ⟨rfl, rfl, rfl, rfl, rfl, rfl, rfl⟩

/-- 40_transition.md R83: no other word feeds into S[3], and each transition adds the increment to it. -/
theorem advance_gjrand_s3 (n : Nat) (w : Words) :
    (advance .gjrand n w).s3 = w.s3 + BitVec.ofNat 64 n * gjrandIncrement := by
  induction n with
  | zero => simp
  | succ n ih =>
    calc (advance .gjrand (n + 1) w).s3
      _ = (advance .gjrand n w).s3 + gjrandIncrement := by rw [advance_last]; rfl
      _ = w.s3 + BitVec.ofNat 64 (n + 1) * gjrandIncrement := by
        rw [ih, BitVec.ofNat_add, BitVec.add_mul, BitVec.one_mul, BitVec.add_assoc]

/-- R83: the increment is odd, so only a multiple of 2^64 makes it vanish. -/
theorem dvd_of_mul_gjrandIncrement_eq_zero {n : Nat} (h : BitVec.ofNat 64 n * gjrandIncrement = 0) : 2 ^ 64 ∣ n := by
  have hmul : 2 ^ 64 ∣ n * gjrandIncrement.toNat := by
    have hmod := congrArg BitVec.toNat h
    rw [BitVec.toNat_mul, BitVec.toNat_ofNat, Nat.mod_mul_mod] at hmod
    exact Nat.dvd_of_mod_eq_zero hmod
  have hodd : Nat.Coprime 2 gjrandIncrement.toNat := by decide
  exact (hodd.pow_left 64).dvd_of_dvd_mul_right hmul

/-- R83: every cycle of S[3] has a length that is a multiple of 2^64. -/
theorem dvd_of_advance_gjrand_s3_eq {n : Nat} {w : Words} (h : (advance .gjrand n w).s3 = w.s3) : 2 ^ 64 ∣ n := by
  rw [advance_gjrand_s3] at h
  exact dvd_of_mul_gjrandIncrement_eq_zero (by simpa using h)

/-- Settles O10: all from the counter law; a fixed point would be a cycle of length 1. -/
theorem gjrandFourthWordIsACounter : Obligations.GjrandFourthWordIsACounter := by
  refine ⟨advance_gjrand_s3, fun n w => dvd_of_advance_gjrand_s3_eq, fun n w h => ?_, fun w h => ?_, fun w0 w1 w2 => ?_⟩
  · exact dvd_of_advance_gjrand_s3_eq (congrArg Words.s3 h)
  · have h1 : 2 ^ 64 ∣ 1 := dvd_of_advance_gjrand_s3_eq (w := w) (congrArg Words.s3 h)
    exact absurd h1 (by norm_num)
  · rw [seededWords_gjrand, advance_gjrand_s3]
    simp [gjrandIncrement]

end Sys2Proof.Machine
end

section
/-! jsf64's zero state (40_transition.md R88): what the draws do in it, and that nothing else leads to it. -/

namespace Sys2Proof.Machine

theorem stepJsf64_zeroWords : stepJsf64 zeroWords = (zeroWords, 0) := rfl

/-- R88: the zero state is a fixed point and the transition is injective. -/
theorem eq_zeroWords_of_stepJsf64 {w : Words} (h : (stepJsf64 w).1 = zeroWords) : w = zeroWords :=
  Function.LeftInverse.injective (invTransition_transition .jsf64) (h.trans (congrArg Prod.fst stepJsf64_zeroWords.symm))

/-- R88: no number of transitions leads from another state to the zero state. -/
theorem eq_zeroWords_of_advance_jsf64 {n : Nat} {w : Words} (h : advance .jsf64 n w = zeroWords) : w = zeroWords := by
  induction n generalizing w with
  | zero => exact h
  | succ n ih => exact eq_zeroWords_of_stepJsf64 (ih h)

/-- 42_seed_state.md R121: SEED places a constant that is not 0 in S[0]. -/
theorem placeSeed_jsf64_ne_zeroWords (w0 w1 w2 : Word) : placeSeed .jsf64 w0 w1 w2 ≠ zeroWords := fun h => by
  have h0 : (0xF1EA5EED : Word) = 0 := congrArg Words.s0 h
  exact absurd h0 (by decide)

/-- The draws of 00_scope.md's glossary, by their bytes. -/
theorem isDraw_iff {c : Command} : isDraw c = true ↔ c.cmd = 0x03#8 ∨ c.cmd = 0x02#8 ∨ c.cmd = 0x04#8 := by
  have h2 := decodeByte_eq_ok_iff c.cmd .next64
  have h3 := decodeByte_eq_ok_iff c.cmd .next32
  have h4 := decodeByte_eq_ok_iff c.cmd .nextraw
  simp only [opcodeByte, BitVec.ofNat_eq_ofNat] at h2 h3 h4
  rw [← h2, ← h3, ← h4, isDraw]
  cases decodeByte c.cmd with
  | error e => simp
  | ok op => cases op <;> simp

theorem zext64_eq_ofNat (r : Half) : zext64 r = BitVec.ofNat 64 r.toNat := by
  rw [← zext64_toNat, BitVec.ofNat_toNat, BitVec.setWidth_eq]

/-- A property that every command of a kind keeps while it answers `a` holds after any sequence of them, and every
answer is `a`. -/
theorem afterAll_answers_of_forall {P : State → Prop} {kind : Command → Prop} {a : Option Response}
    (h : ∀ s c, P s → kind c → P (after c s) ∧ (after c s).response = a) {s : State} {cs : List Command}
    (hs : P s) (hcs : ∀ c ∈ cs, kind c) : P (afterAll cs s) ∧ ∀ b ∈ answers cs s, b = a := by
  induction cs generalizing s with
  | nil => exact ⟨hs, nofun⟩
  | cons c cs ih =>
    obtain ⟨hc, hcs⟩ := List.forall_mem_cons.1 hcs
    obtain ⟨hafter, hresp⟩ := h s c hs hc
    obtain ⟨hend, hans⟩ := ih hafter hcs
    exact ⟨hend, List.forall_mem_cons.2 ⟨hresp, hans⟩⟩

/-- A seeded jsf64 instance in the zero state. -/
structure AtJsf64Zero (s : State) : Prop where
  variant : s.variant = .jsf64
  valid   : s.valid = true
  words   : s.words = zeroWords

theorem AtJsf64Zero.transition_eq {s : State} (h : AtJsf64Zero s) :
    transition s.variant s.words = (zeroWords, 0) := by
  rw [h.variant, h.words]
  exact stepJsf64_zeroWords

/-- R88: a 64-bit draw stays there and answers 0; the buffer keeps what it holds (41_output.md R101). -/
theorem atJsf64Zero_draw64 {s : State} (h : AtJsf64Zero s) :
    AtJsf64Zero (draw64 s) ∧ (draw64 s).response = some ⟨.ok, 0, 0⟩ :=
  ⟨⟨h.variant, h.valid, by simp [h.transition_eq]⟩, by simp [h.transition_eq]⟩

theorem atJsf64Zero_draw32Hit {s : State} (h : AtJsf64Zero s) : AtJsf64Zero (draw32Hit s) :=
  ⟨h.variant, h.valid, h.words⟩

/-- R88, 41_output.md R106: NEXT32 with an empty buffer stays there, answers 0 and keeps 0. -/
theorem atJsf64Zero_draw32Miss {s : State} (h : AtJsf64Zero s) :
    AtJsf64Zero (draw32Miss s) ∧ (draw32Miss s).cachedValue = 0 ∧ (draw32Miss s).response = some ⟨.ok, 0, 0⟩ := by
  refine ⟨⟨h.variant, h.valid, ?_⟩, ?_, ?_⟩ <;> simp [h.transition_eq, lowHalf, highHalf, zext64]

/-- The zero state with an output buffer that is empty or holds 0: no draw can answer anything but 0. -/
def Jsf64Absorbed (s : State) : Prop := AtJsf64Zero s ∧ (s.hasCached = true → s.cachedValue = 0)

/-- R88: every draw answers 0, and only 0 can come out after it. -/
theorem jsf64Absorbed_draw (s : State) (c : Command) (h : Jsf64Absorbed s) (hc : isDraw c = true) :
    Jsf64Absorbed (after c s) ∧ (after c s).response = some ⟨.ok, 0, 0⟩ := by
  obtain ⟨hz, hbuf⟩ := h
  rcases isDraw_iff.1 hc with hc | hc
  · rw [after_next32 hz.valid hc]
    cases hflag : s.hasCached with
    | true => exact ⟨⟨atJsf64Zero_draw32Hit hz, nofun⟩, by simp [hbuf hflag, zext64]⟩
    | false =>
      obtain ⟨hz', hval, hresp⟩ := atJsf64Zero_draw32Miss hz
      exact ⟨⟨hz', fun _ => hval⟩, hresp⟩
  · rw [after_draw64 hz.valid hc]
    obtain ⟨hz', hresp⟩ := atJsf64Zero_draw64 hz
    exact ⟨⟨hz', hbuf⟩, hresp⟩

/-- The zero state with the half `v` pending, as SETSTATE can leave it. -/
def Jsf64Pending (v : Half) (s : State) : Prop := AtJsf64Zero s ∧ s.hasCached = true ∧ s.cachedValue = v

/-- R88, 41_output.md R101: 64-bit draws answer 0 and leave the half pending. -/
theorem jsf64Pending_draw64 {v : Half} (s : State) (c : Command) (h : Jsf64Pending v s)
    (hc : c.cmd = 0x02#8 ∨ c.cmd = 0x04#8) :
    Jsf64Pending v (after c s) ∧ (after c s).response = some ⟨.ok, 0, 0⟩ := by
  obtain ⟨hz, hbuf⟩ := h
  rw [after_draw64 hz.valid hc]
  obtain ⟨hz', hresp⟩ := atJsf64Zero_draw64 hz
  exact ⟨⟨hz', hbuf⟩, hresp⟩

/-- 41_output.md R104, R105: NEXT32 answers the pending half, and what is left is absorbed. -/
theorem jsf64Pending_next32 {v : Half} {s : State} {c : Command} (h : Jsf64Pending v s) (hc : c.cmd = 0x03#8) :
    Jsf64Absorbed (after c s) ∧ (after c s).response = some ⟨.ok, BitVec.ofNat 64 v.toNat, 0⟩ := by
  obtain ⟨hz, hflag, rfl⟩ := h
  rw [after_next32 hz.valid hc, if_pos hflag]
  exact ⟨⟨atJsf64Zero_draw32Hit hz, nofun⟩, by rw [draw32Hit_response, zext64_eq_ofNat]⟩

/-- Settles O11: draws by the two invariants `Jsf64Absorbed` and `Jsf64Pending`; the rest by injectivity. -/
theorem jsf64ZeroStateAbsorbsAndIsNeverSeeded : Obligations.Jsf64ZeroStateAbsorbsAndIsNeverSeeded := by
  refine ⟨fun s cs hvar hval hw hbuf hcs => ?_, fun s cs ds c hvar hval hw hflag hcs hc hds => ?_,
    fun w => eq_zeroWords_of_stepJsf64, fun n w0 w1 w2 h => ?_⟩
  · obtain ⟨⟨hz, -⟩, hans⟩ :=
      afterAll_answers_of_forall jsf64Absorbed_draw (s := s) ⟨⟨hvar, hval, hw⟩, hbuf⟩ hcs
    exact ⟨hz.words, hans⟩
  · obtain ⟨hpend, hans⟩ :=
      afterAll_answers_of_forall jsf64Pending_draw64 (s := s) ⟨⟨hvar, hval, hw⟩, hflag, rfl⟩ hcs
    obtain ⟨habs, hresp⟩ := jsf64Pending_next32 hpend hc
    obtain ⟨⟨hz, -⟩, hans'⟩ := afterAll_answers_of_forall jsf64Absorbed_draw habs hds
    exact ⟨hans, hresp, hans', hz.words⟩
  · exact placeSeed_jsf64_ne_zeroWords w0 w1 w2
      (eq_zeroWords_of_advance_jsf64 (n := warmUpCount .jsf64) (eq_zeroWords_of_advance_jsf64 h))

end Sys2Proof.Machine
end

section
/-! What one draw does while VALID = 1 (41_output.md R100 to R106). -/

namespace Sys2Proof.Machine

variable {s : State} {c : Command}

/-- R100, R102: while VALID = 1 NEXT64 and NEXTRAW are the 64-bit draw. -/
theorem exec_draw64 {i : Instr} (hi : i = .next64 ∨ i = .nextraw) (hv : s.valid = true) :
    exec i s = .next (draw64 s) := by
  rcases hi with rfl | rfl <;> exact requireSeeded_seeded draw64 hv

/-- R105: NEXT32 with a pending half is a hit. -/
theorem exec_next32_hit (hv : s.valid = true) (hflag : s.hasCached = true) :
    exec .next32 s = .next (draw32Hit s) := by
  simp [exec, execNext32, hv, hflag]

/-- R106: NEXT32 with an empty buffer is a miss. -/
theorem exec_next32_miss (hv : s.valid = true) (hflag : s.hasCached = false) :
    exec .next32 s = .next (draw32Miss s) := by
  simp [exec, execNext32, hv, hflag]

theorem after_next32_hit (hv : s.valid = true) (hflag : s.hasCached = true) (hc : c.cmd = 0x03#8) :
    after c s = draw32Hit s :=
  (after_next32 hv hc).trans (if_pos hflag)

theorem after_next32_miss (hv : s.valid = true) (hflag : s.hasCached = false) (hc : c.cmd = 0x03#8) :
    after c s = draw32Miss s :=
  (after_next32 hv hc).trans (if_neg (by simp [hflag]))

theorem zext64_lowHalf_toNat (w : Word) : (zext64 (lowHalf w)).toNat = w.toNat % 2 ^ 32 :=
  (zext64_toNat _).trans (lowHalf_toNat w)

theorem zext64_highHalf_toNat (w : Word) : (zext64 (highHalf w)).toNat = w.toNat / 2 ^ 32 :=
  (zext64_toNat _).trans (highHalf_toNat w)

/-- Settles O13: both are `draw64` while VALID = 1, and both turn away in the same way while it is 0. -/
theorem sixtyFourBitDrawsAdvanceOnce : Obligations.SixtyFourBitDrawsAdvanceOnce :=
  ⟨fun _ _ hi hv => exec_draw64 hi hv, fun _ => rfl⟩

/-- Settles O14: the fields of `draw32Hit`, with the zero extension as a number. -/
theorem next32HitReturnsTheCachedHalf : Obligations.Next32HitReturnsTheCachedHalf := by
  intro s hv hflag
  rw [exec_next32_hit hv hflag, ← zext64_eq_ofNat]
  rfl

/-- Settles O15: the fields of `draw32Miss`, with the two halves as numbers. -/
theorem next32MissSplitsOneDraw : Obligations.Next32MissSplitsOneDraw := fun s hv hflag =>
  ⟨draw32Miss s, exec_next32_miss hv hflag, rfl, rfl, highHalf_toNat _, zext64_lowHalf_toNat _, rfl, rfl, rfl, rfl, rfl⟩

end Sys2Proof.Machine
end

section
/-! Sequences of draws: what they make of the words and of the 32-bit buffer (41_output.md R101, R107 to R109). -/

namespace Sys2Proof.Machine

/-- R101: any number of 64-bit draws keeps VALID and the buffer, and makes one transition each. -/
theorem afterAll_draw64 {s : State} {cs : List Command} (hv : s.valid = true)
    (hcs : ∀ c ∈ cs, c.cmd = 0x02#8 ∨ c.cmd = 0x04#8) :
    (afterAll cs s).valid = s.valid ∧ (afterAll cs s).hasCached = s.hasCached ∧
      (afterAll cs s).cachedValue = s.cachedValue ∧
      (afterAll cs s).words = advance s.variant cs.length s.words := by
  induction cs generalizing s with
  | nil => exact ⟨rfl, rfl, rfl, rfl⟩
  | cons c cs ih =>
    obtain ⟨hc, hcs⟩ := List.forall_mem_cons.1 hcs
    rw [afterAll, after_draw64 hv hc]
    exact ih (s := draw64 s) hv hcs

/-- Settles O28: the buffer by `afterAll_draw64`, the answers by O35, the pending half by a hit. -/
theorem cachedHalfSurvivesSixtyFourBitDraws : Obligations.CachedHalfSurvivesSixtyFourBitDraws := by
  intro s cs hv hcs
  obtain ⟨hvalid, hflag, hvalue, hwords⟩ := afterAll_draw64 hv hcs
  refine ⟨hflag, hvalue, hwords, fun b x => ?_, fun hpending => ?_⟩
  · exact (wordsDetermineTheSixtyFourBitStream { s with hasCached := b, cachedValue := x } s cs rfl rfl hv hv hcs).1
  · rw [after_next32_hit (hvalid.trans hv) (hflag.trans hpending) rfl]
    exact ⟨by rw [draw32Hit_out, zext64_toNat, hvalue], rfl⟩

/-- Settles O29: the pair is a miss and a hit, which answers the half that the miss kept. -/
theorem twoHalvesMakeTheWholeDraw : Obligations.TwoHalvesMakeTheWholeDraw := by
  refine ⟨fun s t hvar hw hs ht hflag _ => ?_, fun s c hc => ?_⟩
  · have hlow := after_next32_miss (c := rawCommand 0x03) hs hflag rfl
    have hhigh := after_next32_hit (s := draw32Miss s) (c := rawCommand 0x03) hs rfl rfl
    have hwhole := after_draw64 (c := rawCommand 0x02) ht (.inl rfl)
    simp only [answers, afterAll, hlow, hhigh, hwhole]
    refine ⟨_, _, (transition s.variant s.words).2, rfl, ?_, zext64_lowHalf_toNat _, zext64_highHalf_toNat _, ?_⟩ <;>
      simp [hvar, hw]
  · rw [after_seed s hc]; rfl

/-- Settles O30, by induction on the number of commands: a miss fills the buffer and a hit empties it, so either claim
for `k + 1` commands rests on the other one for `k`. -/
theorem next32RunMakesHalfAsManyTransitions : Obligations.Next32RunMakesHalfAsManyTransitions := by
  intro k
  induction k with
  | zero => simp +contextual [afterAll]
  | succ k ih =>
    intro s hv
    rw [List.replicate_succ, afterAll]
    refine ⟨fun hflag => ?_, fun hflag => ?_⟩
    · rw [after_next32_miss hv hflag rfl]
      obtain ⟨hwords, hfull⟩ := (ih (draw32Miss s) hv).2 rfl
      have hhalf : (k + 1 + 1) / 2 = k / 2 + 1 := Nat.add_div_right k two_pos
      exact ⟨by rw [hwords, hhalf]; rfl, hfull⟩
    · rw [after_next32_hit hv hflag rfl]
      obtain ⟨hwords, hfull⟩ := (ih (draw32Hit s) hv).1 rfl
      exact ⟨hwords, hfull.trans (by omega)⟩

/-- Settles O31: a miss, a 64-bit draw that leaves the buffer alone, and a hit. -/
theorem mixedDrawsKeepTheFirstHighHalf : Obligations.MixedDrawsKeepTheFirstHighHalf := by
  intro s hv hflag
  have hlow := after_next32_miss (c := rawCommand 0x03) hv hflag rfl
  have hwhole := after_draw64 (s := draw32Miss s) (c := rawCommand 0x02) hv (.inl rfl)
  have hhigh := after_next32_hit (s := draw64 (draw32Miss s)) (c := rawCommand 0x03) hv rfl rfl
  simp only [answers, afterAll, hlow, hwhole, hhigh]
  exact ⟨_, _, _, _, rfl, rfl, rfl, zext64_lowHalf_toNat _, zext64_highHalf_toNat _, rfl⟩

end Sys2Proof.Machine
end

section
/-! The seed load unit and the snapshot commands, one at a time (42_seed_state.md R121 to R131). -/

namespace Sys2Proof.Machine

/-- R128: while VALID = 1 GETSTATE shows the snapshot and does nothing else. -/
theorem exec_getstate_seeded {s : State} (hv : s.valid = true) :
    exec .getstate s = .next (respond .ok (snapshotOf s).pack s) := by
  rw [exec, execGetstate, requireSeeded_seeded _ hv]

/-- 30_encoding.md R69: the spare bits of a packed snapshot are 0. -/
theorem getLsbD_pack_of_ge (x : Snapshot) {k : Nat} (hk : 289 ≤ k) : x.pack.getLsbD k = false := by
  have hbit := Snapshot.getLsbD_pack_unpack x.pack k
  rwa [unpack_pack, decide_eq_false (Nat.not_lt.2 hk), Bool.false_and] at hbit

/-- Settles O16: the bus is the packed snapshot, and unpacking it gives the fields back. -/
theorem getstateShowsTheSnapshot : Obligations.GetstateShowsTheSnapshot := by
  intro s hv
  have hfields := unpack_pack (snapshotOf s)
  rw [Snapshot.unpack_eq] at hfields
  exact ⟨_, exec_getstate_seeded hv, congrArg (·.words.s0) hfields, congrArg (·.words.s1) hfields,
    congrArg (·.words.s2) hfields, congrArg (·.words.s3) hfields, congrArg (·.cachedValue) hfields,
    congrArg (·.hasCached) hfields, fun _ => getLsbD_pack_of_ge _⟩

/-- Settles O12: the fields of `execSeed_eq`, with the placement and the count of each variant. -/
theorem seedPlacesWarmsUpAndClears : Obligations.SeedPlacesWarmsUpAndClears := by
  rintro ⟨variant⟩ w0 w1 w2
  rw [exec, execSeed_eq]
  cases variant with
  | gjrand => rw [seededWords_gjrand]; rfl
  | jsf64 => rw [seededWords_jsf64]; rfl

/-- Settles O17: the fields of `install`; the byte `0x06` takes them from their places on `state_in`. -/
theorem setstateInstallsTheSnapshot : Obligations.SetstateInstallsTheSnapshot := by
  refine ⟨fun s x => rfl, fun s c hc => ?_⟩
  rw [performCommand_of_cmd .setstate hc, operandsOf, Snapshot.unpack_eq]
  rfl

/-- R120: what an encoded SEED leaves. -/
theorem after_encode_seed (s : State) (w0 w1 w2 : Word) : after (encode (.seed w0 w1 w2)) s =
    respond .ok 0 (markSeeded (clearBuffer (setWords (seededWords s.variant w0 w1 w2) s))) :=
  after_eq (by rw [performCommand, decode_encode]; exact execSeed_eq w0 w1 w2 s)

/-- R126: the answers to SEED and NEXT64 of either variant. -/
theorem answers_seed_next64 (s : State) (w0 w1 w2 : Word) :
    answers [encode (.seed w0 w1 w2), encode .next64] s =
      [some ⟨.ok, s.out, 0⟩, some ⟨.ok, (transition s.variant (seededWords s.variant w0 w1 w2)).2, 0⟩] := by
  rw [answers, answers, answers, after_encode_seed, after_draw64 rfl (.inl rfl)]
  rfl

/-- Settles O32: `answers_seed_next64` for each variant. -/
theorem firstDrawFollowsTheWarmUp : Obligations.FirstDrawFollowsTheWarmUp := by
  refine fun s w0 w1 w2 => ⟨fun hvar => ?_, fun hvar => ?_⟩
  · rw [answers_seed_next64, hvar, seededWords_gjrand, transition]
  · rw [answers_seed_next64, hvar, seededWords_jsf64, transition]

end Sys2Proof.Machine
end

section
/-! `SameGenerator` is a bisimulation: whatever command two such instances get, they stay so, and the host sees the same
of both (42_seed_state.md R125, R133). -/

namespace Sys2Proof.Machine

variable {s t : State} {c : Command}

/-- GETSTATE shows the same of both. -/
theorem SameGenerator.snapshotOf_eq (h : SameGenerator s t) : snapshotOf s = snapshotOf t := by
  obtain ⟨-, hwords, hflag, hvalue, -⟩ := h
  rw [snapshotOf, snapshotOf, hwords, hflag, hvalue]

/-- The two instances still agree, and the last response told the host the same of both. -/
def SameShown (c : Command) (s t : State) : Prop :=
  SameGenerator s t ∧ s.response.map (visible c) = t.response.map (visible c)

/-- A response of one status and one snapshot shows the same, if OUT agrees where the command is a performed draw. -/
theorem sameShown_respond {st : Status} {x : SnapshotBus} (h : SameGenerator s t)
    (hout : isDraw c = true → st = .ok → s.out = t.out) :
    SameShown c (respond st x s) (respond st x t) := by
  refine ⟨h, ?_⟩
  by_cases hdraw : isDraw c = true ∧ st = .ok
  · obtain ⟨hc, hst⟩ := hdraw
    simp [visible, hout hc hst]
  · simp [visible, hdraw]

/-- Every command keeps the agreement and shows the same of both. -/
theorem sameShown_after (h : SameGenerator s t) (c : Command) : SameShown c (after c s) (after c t) := by
  have ⟨hvar, hwords, hflag, hvalue, hvalid⟩ := h
  rcases performCommand_cases (performCommand_after c s) with
    ⟨hc, e⟩ | ⟨hc, hv, e⟩ | ⟨hc, e⟩ | ⟨hc, hv, e⟩ | ⟨hc, hv, hm, e⟩ | ⟨hc, hv, hm, e⟩ | ⟨hc, hv, e⟩ | ⟨hc, e⟩ <;> rw [e]
  · rw [after_reserved t hc]
    exact sameShown_respond h fun _ => nofun
  · rw [after_unseeded (hvalid ▸ hv) hc]
    exact sameShown_respond h fun _ => nofun
  · rw [after_seed t hc, hvar]
    exact sameShown_respond ⟨hvar, rfl, rfl, rfl, rfl⟩ (by simp [isDraw_iff, hc])
  · rw [after_draw64 (hvalid ▸ hv) hc, draw64, draw64, hvar, hwords]
    exact sameShown_respond ⟨hvar, rfl, hflag, hvalue, hvalid⟩ fun _ _ => rfl
  · rw [after_next32_hit (hvalid ▸ hv) (hflag ▸ hm) hc, draw32Hit, draw32Hit, hvalue]
    exact sameShown_respond ⟨hvar, hwords, rfl, hvalue, hvalid⟩ fun _ _ => rfl
  · rw [after_next32_miss (hvalid ▸ hv) (hflag ▸ hm) hc, draw32Miss, draw32Miss, hvar, hwords]
    exact sameShown_respond ⟨hvar, rfl, rfl, rfl, hvalid⟩ fun _ _ => rfl
  · rw [after_getstate (hvalid ▸ hv) hc, h.snapshotOf_eq]
    exact sameShown_respond h (by simp [isDraw_iff, hc])
  · rw [after_setstate t hc]
    exact sameShown_respond ⟨hvar, rfl, rfl, rfl, rfl⟩ (by simp [isDraw_iff, hc])

theorem seen_cons (c : Command) (cs : List Command) (s : State) :
    seen (c :: cs) s = (after c s).response.map (visible c) :: seen cs (after c s) := rfl

/-- Any sequence of commands shows the host the same of both. -/
theorem SameGenerator.seen_eq (h : SameGenerator s t) (cs : List Command) : seen cs s = seen cs t := by
  induction cs generalizing s t with
  | nil => rfl
  | cons c cs ih =>
    obtain ⟨hafter, hshown⟩ := sameShown_after h c
    rw [seen_cons, seen_cons, hshown, ih hafter]

/-- 30_encoding.md R68: the third seed word matters to jsf64 alone. -/
theorem seededWords_congr {v : Variant} (w0 w1 : Word) {w2 w2' : Word} (h : w2 = w2' ∨ v = .gjrand) :
    seededWords v w0 w1 w2 = seededWords v w0 w1 w2' := by
  rcases h with rfl | rfl
  · rfl
  · rw [seededWords_gjrand, seededWords_gjrand]

/-- Settles O33: what SEED writes is a function of VARIANT and the consumed words, and `seen_eq` does the rest. -/
theorem seedErasesThePast : Obligations.SeedErasesThePast := by
  intro s t w0 w1 w2 w2' cs hvar hw2
  rw [after_encode_seed, after_encode_seed]
  have hsame : SameGenerator
      (respond .ok 0 (markSeeded (clearBuffer (setWords (seededWords s.variant w0 w1 w2) s))))
      (respond .ok 0 (markSeeded (clearBuffer (setWords (seededWords t.variant w0 w1 w2') t)))) :=
    ⟨hvar, by simp [← hvar, seededWords_congr w0 w1 hw2], rfl, rfl, rfl⟩
  exact ⟨hsame, rfl, rfl, rfl, hsame.seen_eq cs⟩

/-- Settles O34: SETSTATE unpacks what GETSTATE packed, and `seen_eq` does the rest. -/
theorem restoredSnapshotReplaysTheStream : Obligations.RestoredSnapshotReplaysTheStream := by
  intro s u seedIn cs hv hvar
  rw [after_getstate hv rfl]
  refine ⟨_, rfl, rfl, ?_⟩
  rw [after_setstate u rfl, unpack_pack]
  have hsame : SameGenerator (respond .ok (snapshotOf s).pack s)
      (respond .ok 0 (markSeeded (install (snapshotOf s) u))) := ⟨hvar, rfl, rfl, rfl, hv⟩
  exact ⟨hsame, rfl, hsame.seen_eq cs⟩

end Sys2Proof.Machine
end

section
/-! The checks of a command in their order (60_exceptions.md R141), the errors they end in (R140, R142), and the events
that perform no command (R153, R163). -/

namespace Sys2Proof.Machine

/-- R141: a command that decodes is performed as what it decodes to. -/
theorem performCommand_of_decode {c : Command} {i : Instr} (hd : decode c = .ok i) (s : State) :
    performCommand c s = exec i s := by
  rw [performCommand, hd]

/-- R141 for the command at the head of the host's list. -/
theorem step_of_decode {s : State} {c : Command} {rest : List HostEvent} {i : Instr} (hw : s.wasReset = true)
    (hh : s.host = .command c :: rest) (hd : decode c = .ok i) : step s = exec i (withHost rest s) :=
  (step_command hw hh).trans (performCommand_of_decode hd _)

/-- R141 by the byte's number: reserved first, then the four commands that need VALID = 1. -/
theorem checkStatus_eq (c : Command) (valid : Bool) : checkStatus c valid =
    if c.cmd.toNat = 0 ∨ 7 ≤ c.cmd.toNat then .errReserved
    else if 2 ≤ c.cmd.toNat ∧ c.cmd.toNat ≤ 5 ∧ valid = false then .errUnseeded
    else .ok := by
  cases hd : decodeByte c.cmd with
  | error e => rw [checkStatus, hd, if_pos ((decodeByte_error_iff _).1 ⟨e, hd⟩)]
  | ok op =>
    rw [checkStatus, hd, (decodeByte_eq_ok_iff _ op).1 hd]
    cases op <;> cases valid <;> rfl

/-- R140: the response of a command carries the status that the checks give. -/
theorem performCommand_status {c : Command} {s t : State} {r : Response} (h : performCommand c s = .next t)
    (hr : t.response = some r) : r.status = checkStatus c s.valid := by
  rw [checkStatus_eq]
  rcases performCommand_cases h with
    ⟨hc, rfl⟩ | ⟨hc, hv, rfl⟩ | ⟨hc, rfl⟩ | ⟨hc, hv, rfl⟩ | ⟨hc, hv, -, rfl⟩ | ⟨hc, hv, -, rfl⟩ | ⟨hc, hv, rfl⟩ |
    ⟨hc, rfl⟩ <;> cases hr
  · simp [hc]
  · rcases hc with hc | hc | hc | hc <;> simp [hc, hv]
  · simp [hc]
  · rcases hc with hc | hc <;> simp [hc, hv]
  · simp [hc, hv]
  · simp [hc, hv]
  · simp [hc, hv]
  · simp [hc]

/-- R141: a command that passes the checks decodes, and is performed as that instruction. -/
theorem exists_decode_of_checkStatus_ok {c : Command} {valid : Bool} (h : checkStatus c valid = .ok) :
    ∃ i, decode c = .ok i := by
  cases hd : decodeByte c.cmd with
  | error e => simp [checkStatus, hd] at h
  | ok op => exact ⟨_, decode_of_cmd op ((decodeByte_eq_ok_iff _ op).1 hd)⟩

/-- Settles O21: the status by `performCommand_status`, and the checks by the byte's number. -/
theorem statusFollowsTheOrderOfTheChecks : Obligations.StatusFollowsTheOrderOfTheChecks := by
  refine ⟨fun s c rest hw hh => ?_, rfl, rfl, rfl, fun st => by cases st <;> decide⟩
  obtain ⟨t, ht⟩ := performCommand_next c (withHost rest s)
  obtain ⟨r, hr, -⟩ := performCommand_response ht
  have hstatus := performCommand_status ht hr
  refine ⟨t, r, (step_command hw hh).trans ht, hr, hstatus.trans (checkStatus_eq c s.valid), fun hok => ?_⟩
  obtain ⟨i, hi⟩ := exists_decode_of_checkStatus_ok (hstatus.symm.trans hok)
  exact ⟨i, hi, step_of_decode hw hh hi⟩

/-- R142: a command whose response is an error was turned away by `raise`. -/
theorem eq_raise_of_status_ne_ok {c : Command} {s t : State} {r : Response} (h : performCommand c s = .next t)
    (hr : t.response = some r) (hst : r.status ≠ .ok) : t = raise r.status s := by
  rcases performCommand_cases h with
    ⟨-, rfl⟩ | ⟨-, -, rfl⟩ | ⟨-, rfl⟩ | ⟨-, -, rfl⟩ | ⟨-, -, -, rfl⟩ | ⟨-, -, -, rfl⟩ | ⟨-, -, rfl⟩ | ⟨-, rfl⟩ <;>
    cases hr
  · rfl
  · rfl
  all_goals exact absurd rfl hst

/-- No instruction reads the response shown before it, and each replaces it. -/
theorem exec_respond (i : Instr) (st : Status) (x : SnapshotBus) (s : State) : exec i (respond st x s) = exec i s := by
  cases i <;> rfl

/-- R142: a response, an error among them, does not change a later command. -/
theorem performCommand_respond (c : Command) (st : Status) (x : SnapshotBus) (s : State) :
    performCommand c (respond st x s) = performCommand c s := by
  cases hd : decode c with
  | error e => simp only [performCommand, hd]; rfl
  | ok i => rw [performCommand_of_decode hd, performCommand_of_decode hd, exec_respond]

/-- R163: before the first reset a command stops the model. -/
theorem step_command_beforeReset {s : State} {c : Command} {rest : List HostEvent} (hw : s.wasReset = false)
    (hh : s.host = .command c :: rest) : step s = .fault .beforeReset := by
  simp [step, performNext, hh, performEvent, hw]

/-- R163: a step that answers a next state performed the command at the head of the list. -/
theorem performCommand_of_step {s t : State} {c : Command} {rest : List HostEvent} (hh : s.host = .command c :: rest)
    (h : step s = .next t) : performCommand c (withHost rest s) = .next t := by
  cases hw : s.wasReset with
  | false => rw [step_command_beforeReset hw hh] at h; cases h
  | true => rwa [step_command hw hh] at h

/-- Settles O22: the step is `raise`, and `performCommand_respond` for the commands after it. -/
theorem errorsArePrecise : Obligations.ErrorsArePrecise := by
  intro s t c rest r hh h hr hst
  have ht : t = raise r.status (withHost rest s) := eq_raise_of_status_ne_ok (performCommand_of_step hh h) hr hst
  exact ⟨ht, fun d => ht ▸ performCommand_respond d r.status 0 (withHost rest s)⟩

/-- Settles O18 by `exec_unseeded`. -/
theorem unseededCommandReportsAndWritesNothing : Obligations.UnseededCommandReportsAndWritesNothing :=
  fun _ _ hi hv => exec_unseeded hv hi

/-- R61: a word of the opcode table that names an instruction is a byte, and decodes to it with both buses zero. -/
theorem decodeTableWord_eq_some_iff {w : Nat} {i : Instr} :
    decodeTableWord 8 w = some i ↔ w < 256 ∧ decode (rawCommand (BitVec.ofNat 8 w)) = .ok i := by
  rw [decodeTableWord]
  cases decode (rawCommand (BitVec.ofNat 8 w)) <;> simp [Except.toOption]

/-- Settles O19: `step_of_decode`, and for the byte that `withFetchWord` places that `w` is its own remainder. -/
theorem stepPerformsTheDecodedInstruction : Obligations.StepPerformsTheDecodedInstruction := by
  refine ⟨fun s c rest i => step_of_decode, fun s w i h => ?_⟩
  obtain ⟨hlt, hd⟩ := decodeTableWord_eq_some_iff.1 h
  rw [← Nat.mod_eq_of_lt hlt] at hd
  exact step_of_decode (s := s.withFetchWord 8 w) rfl rfl hd

/-- R153: with no event left the block holds its registers. -/
theorem step_idle {s : State} (hh : s.host = []) : step s = .next (holdIdle s) := by
  simp [step, performNext, hh]

/-- A loss of power on the host's list happens in the next step, whatever state the block is in. -/
theorem step_powerCycle {s : State} {rest : List HostEvent} (hh : s.host = .powerCycle :: rest) :
    step s = .next (losePower (withHost rest s)) := by
  simp [step, performNext, hh, performEvent]

/-- Settles O39 by the step of each of the three: `holdIdle`, `losePower`, and the fault of R163. -/
theorem idleHoldsAndPowerLossNeedsReset : Obligations.IdleHoldsAndPowerLossNeedsReset :=
  ⟨fun _ => step_idle, fun _ _ hh => ⟨_, step_powerCycle hh, rfl, rfl, rfl, rfl⟩,
    fun _ _ _ => step_command_beforeReset⟩

end Sys2Proof.Machine
end

section
/-! Before the first SEED or SETSTATE (70_reset_and_hazards.md R164), a reset at any edge (R160, R161), and the latency
of a command (R170). -/

namespace Sys2Proof.Machine

/-- 60_exceptions.md R141: while VALID = 0 every command but SEED and SETSTATE ends in an error. -/
theorem after_eq_raise_of_unseeded {c : Command} {s : State} (hv : s.valid = false)
    (hc : c.cmd ≠ 0x01#8 ∧ c.cmd ≠ 0x06#8) : after c s = raise .errReserved s ∨ after c s = raise .errUnseeded s := by
  obtain ⟨hseed, hset⟩ := hc
  rcases performCommand_cases (performCommand_after c s) with
    ⟨-, h⟩ | ⟨-, -, h⟩ | ⟨h, -⟩ | ⟨-, h, -⟩ | ⟨-, h, -⟩ | ⟨-, h, -⟩ | ⟨-, h, -⟩ | ⟨h, -⟩
  · exact .inl h
  · exact .inr h
  · exact absurd h hseed
  iterate 4 · simp [hv] at h
  · exact absurd h hset

/-- R164: at the reset values such a command keeps every register and answers an error with zero data. -/
theorem registersAtReset_after {c : Command} {s : State} (hs : RegistersAtReset s)
    (hc : c.cmd ≠ 0x01#8 ∧ c.cmd ≠ 0x06#8) : RegistersAtReset (after c s) ∧
      ((after c s).response = some ⟨.errReserved, 0, 0⟩ ∨ (after c s).response = some ⟨.errUnseeded, 0, 0⟩) := by
  have ⟨_, _, _, hout, hv⟩ := hs
  rcases after_eq_raise_of_unseeded hv hc with h | h <;> rw [h, raise_response, hout]
  · exact ⟨hs, .inl rfl⟩
  · exact ⟨hs, .inr rfl⟩

/-- R164: the same of any number of such commands. -/
theorem registersAtReset_afterAll {cs : List Command} {s : State} (hs : RegistersAtReset s)
    (hcs : ∀ c ∈ cs, c.cmd ≠ 0x01#8 ∧ c.cmd ≠ 0x06#8) : RegistersAtReset (afterAll cs s) ∧
      ∀ a ∈ answers cs s, a = some ⟨.errReserved, 0, 0⟩ ∨ a = some ⟨.errUnseeded, 0, 0⟩ := by
  induction cs generalizing s with
  | nil => exact ⟨hs, nofun⟩
  | cons c cs ih =>
    obtain ⟨hc, hcs⟩ := List.forall_mem_cons.1 hcs
    obtain ⟨hafter, hresp⟩ := registersAtReset_after hs hc
    obtain ⟨hend, hans⟩ := ih hafter hcs
    exact ⟨hend, List.forall_mem_cons.2 ⟨hresp, hans⟩⟩

/-- 10_state.md R25: SEED and SETSTATE answer OK with the OUT that they leave, and set VALID. -/
theorem after_seed_or_setstate {c : Command} (s : State) (hc : c.cmd = 0x01#8 ∨ c.cmd = 0x06#8) :
    (after c s).response = some ⟨.ok, s.out, 0⟩ ∧ (after c s).valid = true := by
  rcases hc with hc | hc
  · rw [after_seed s hc]; exact ⟨rfl, rfl⟩
  · rw [after_setstate s hc]; exact ⟨rfl, rfl⟩

/-- Settles O37: `registersAtReset_afterAll` from reset, after which OUT is still 0. -/
theorem nothingIsDrawnBeforeSeeding : Obligations.NothingIsDrawnBeforeSeeding := by
  intro v cs hcs
  obtain ⟨hend, hans⟩ := registersAtReset_afterAll (s := State.resetOf v) ⟨rfl, rfl, rfl, rfl, rfl⟩ hcs
  have ⟨_, _, _, hout, _⟩ := hend
  exact ⟨hend, hans, fun c hc => hout ▸ after_seed_or_setstate _ hc⟩

/-- R170: a command that does not pass the checks takes `LAT(ERR)`. -/
theorem latencyOf_of_checkStatus_ne_ok (lat : Latency) {c : Command} {valid : Bool} (h : checkStatus c valid ≠ .ok) :
    latencyOf lat c valid = lat.err := by
  unfold latencyOf
  split
  · exact absurd ‹_› h
  · rfl

/-- R170: one that passes them takes the latency of the opcode it decodes to. -/
theorem latencyOf_of_decode (lat : Latency) {c : Command} {valid : Bool} {i : Instr} (hd : decode c = .ok i)
    (h : checkStatus c valid = .ok) : latencyOf lat c valid = lat.op i.opcode := by
  obtain ⟨hcmd, -⟩ := decode_eq_ok_iff.1 hd
  simp only [latencyOf, hcmd, decodeByte_opcodeByte, h]

/-- Settles O49: the response's status is that of the checks, and the latency goes by the checks. -/
theorem latencyGoesByTheStatus : Obligations.LatencyGoesByTheStatus := by
  intro lat s c
  obtain ⟨t, ht⟩ := performCommand_next c s
  obtain ⟨r, hr, -⟩ := performCommand_response ht
  have hstatus := performCommand_status ht hr
  refine ⟨t, r, ht, hr, fun herr => latencyOf_of_checkStatus_ne_ok lat (hstatus ▸ herr), fun hok => ?_⟩
  have hcheck := hstatus.symm.trans hok
  obtain ⟨i, hi⟩ := exists_decode_of_checkStatus_ok hcheck
  exact ⟨i, hi, latencyOf_of_decode lat hi hcheck⟩

/-- R160: while `rst` = 1 a block that was reset before is not ready and shows no response. -/
theorem outputs_of_rst {b : Block} {i : PortIn} (hw : b.core.wasReset = true) (hr : i.rst = true) :
    outputs b i = some ⟨false, none, b.core.valid⟩ := by
  simp [outputs, hw, hr]

/-- Settles O46: the edge is `resetRegisters` on an idle block, whatever was in flight. -/
theorem resetAbortsWhateverIsInFlight : Obligations.ResetAbortsWhateverIsInFlight := fun _ b _ hi =>
  ⟨fun hw => outputs_of_rst hw hi, _, edge_rst b hi, ⟨rfl, rfl, rfl, rfl, rfl⟩, rfl, rfl, rfl,
    fun _ hj => outputs_of_not_rst rfl hj⟩

end Sys2Proof.Machine
end
